-- ==== Sys2Proof/Word.lean ====
section
/-! DEFINITION. The words of frame_codec (spec/00_scope.md R5, R7, R8): a frame word is 16 bits, a byte
8 bits, a command word 64 bits, and bit 0 is the least significant bit of each. -/

namespace Sys2Proof

/-- A frame word, 16 bits (R5 `WORD_BITS`, R7). -/
abbrev Word := BitVec 16

/-- A byte of a datagram or half of a packed word, 8 bits (R7). -/
abbrev Byte := BitVec 8

/-- A HOST command word `cmd[63:0]` (R75, R6 `CMD_BITS`). -/
abbrev CommandWord := BitVec 64

/-- A datagram as the ports carry it: the list of its bytes in byte-offset order (glossary "Datagram"). -/
abbrev Datagram := List Byte

end Sys2Proof
end

