-- ==== Sys2Proof/Config.lean ====
section
/-! DEFINITION. The implementation parameters of frame_codec (spec/00_scope.md R5, R6) and its one open
choice, `ARB_ORDER`. -/

namespace Sys2Proof

/-- The two agents of the block (R13.1, R208). -/
inductive Agent where
  /-- Drives the command port. -/
  | host
  /-- Delivers datagrams to the RX port. -/
  | rx
deriving DecidableEq, Repr, Inhabited

namespace Config

/-- R5 `FRAME_WORDS`. -/
@[simp] abbrev frameWords : Nat := 90
/-- R5 `FRAME_BYTES`. -/
@[simp] abbrev frameBytes : Nat := 180
/-- R5 `CSUM_SPAN`: how many words `compute_checksum` sums. -/
@[simp] abbrev csumSpan : Nat := 89
/-- R5 `SEQ_MOD`. -/
@[simp] abbrev seqMod : Nat := 60000
/-- R5 `SEQ_LAST`. -/
@[simp] abbrev seqLast : Nat := 59999
/-- R5 `MOTION_BASE`. -/
@[simp] abbrev motionBase : Nat := 20
/-- R5 `MOTION_ENTRIES`. -/
@[simp] abbrev motionEntries : Nat := 30
/-- R5 `USER_BASE`. -/
@[simp] abbrev userBase : Nat := 80
/-- R5 `USER_SLOTS`. -/
@[simp] abbrev userSlots : Nat := 8
/-- R6 `CMD_BITS`. -/
@[simp] abbrev cmdBits : Nat := 64
/-- R6 `RX_LEN_SAT`: the RX length counter saturates here. -/
@[simp] abbrev rxLenSat : Nat := 181

/-- `ARB_ORDER` (R6, R48), left open by the spec: which agent goes first at the `n`-th step of a run at
which both have something ready. A FREE VALUE: it has no body, so a proof holds for both orders at every
such step. Log entry 2 (DESIGN CHOICE, safe). -/
opaque arbOrder : Nat → Agent

end Config

end Sys2Proof
end

