-- ==== Sys2Proof/Syntax.lean ====
section
/-! DEFINITION. The instructions of frame_codec: the 26 HOST commands of spec/30_encoding.md R80 with the
operands R76 gives each, and the RX operation `RX_DATAGRAM` of spec/43_link.md R175; and the names the
assembler has for operands (R62, R67). One constructor per row of spec/opcode_table.json, in its order. -/

namespace Sys2Proof

/-- An operation of the block. An operand field is a whole 16-bit field (R70): the masking of 8-bit values
is the block's own work (R72), so it belongs to the meaning and not to the instruction. `idx` is the
unsigned 8-bit field `IDX` (R73). -/
inductive Instr where
  /-- SET_MCMD (R100): master command. -/
  | setMcmd (code : Word)
  /-- SET_SEQ (R101): sequence number. -/
  | setSeq (seq : Word)
  /-- SET_ACC (R102): acceleration. -/
  | setAcc (x y z : Word)
  /-- SET_GYRO (R103): gyroscope. -/
  | setGyro (x y z : Word)
  /-- SET_MAG (R104): magnetometer. -/
  | setMag (x y z : Word)
  /-- SET_TEMP (R105): temperature. -/
  | setTemp (t : Word)
  /-- SET_ORI (R106): orientation estimate. -/
  | setOri (roll pitch yaw : Word)
  /-- SET_BTN (R107): button bitmask. -/
  | setBtn (buttons : Word)
  /-- SET_LSTICK (R109): left stick. -/
  | setLstick (horizontal vertical : Word)
  /-- SET_RSTICK (R110): right stick. -/
  | setRstick (horizontal vertical : Word)
  /-- SET_TRIG (R111): analog trigger pair. -/
  | setTrig (first second : Word)
  /-- SET_MCNT (R112): motion frame counts. -/
  | setMcnt (first second : Word)
  /-- SET_MOTION (R114): one entry of the motion command table. -/
  | setMotion (idx : Byte) (sub1 sub2 value : Word)
  /-- SET_USER (R115): one user-data slot. -/
  | setUser (idx : Byte) (value : Word)
  /-- ERR_SET (R165): accumulate error flags. -/
  | errSet (code : Word)
  /-- ERR_CLR (R166): clear the error word. -/
  | errClr
  /-- CSUM_OUT (R135): checksum of OUT. -/
  | csumOut
  /-- CSUM_IN (R136): checksum of IN. -/
  | csumIn
  /-- VAL_OUT (R138): validity of OUT. -/
  | valOut
  /-- VAL_IN (R139): validity of IN. -/
  | valIn
  /-- FINALIZE (R137): store the checksum of OUT. -/
  | finalize
  /-- SEQ_NEXT (R155): the next sequence number of two. -/
  | seqNext (localSeq remoteSeq : Word)
  /-- SEND (R170): number, finalize and transmit OUT. -/
  | send
  /-- RD_OUT (R180): read a word of OUT. -/
  | rdOut (idx : Byte)
  /-- RD_IN (R181): read a word of IN. -/
  | rdIn (idx : Byte)
  /-- RD_STAT (R183): read the status word. -/
  | rdStat
  /-- RX_DATAGRAM (R175): receive a datagram; every byte list is one (R80). -/
  | rxDatagram (bytes : Datagram)
deriving DecidableEq, Repr

/-- The port an operation arrives on (R13.3, R206): the command port for the 26 commands, the RX port for
RX_DATAGRAM. -/
def Instr.agent : Instr → Agent
  | .setMcmd _ => .host
  | .setSeq _ => .host
  | .setAcc _ _ _ => .host
  | .setGyro _ _ _ => .host
  | .setMag _ _ _ => .host
  | .setTemp _ => .host
  | .setOri _ _ _ => .host
  | .setBtn _ => .host
  | .setLstick _ _ => .host
  | .setRstick _ _ => .host
  | .setTrig _ _ => .host
  | .setMcnt _ _ => .host
  | .setMotion _ _ _ _ => .host
  | .setUser _ _ => .host
  | .errSet _ => .host
  | .errClr => .host
  | .csumOut => .host
  | .csumIn => .host
  | .valOut => .host
  | .valIn => .host
  | .finalize => .host
  | .seqNext _ _ => .host
  | .send => .host
  | .rdOut _ => .host
  | .rdIn _ => .host
  | .rdStat => .host
  | .rxDatagram _ => .rx

/-- What a port presents to the block: a command word, or the byte list of a datagram (R14). -/
inductive PortInput where
  /-- A 64-bit word on the command port (R75). -/
  | command (w : CommandWord)
  /-- The bytes of one datagram on the RX port, in order (R175). -/
  | datagram (bytes : Datagram)
deriving DecidableEq, Repr

/-- The buttons of the bitmask word 15 (R62), in bit order. -/
inductive Button where
  | select | r3 | l3 | start | up | right | down | left
  | l2 | r2 | l1 | r1 | b | d | a | c
deriving DecidableEq, Repr

/-- The button snapshot of R74: one boolean per button of R62. -/
structure ButtonSnapshot where
  select : Bool := false
  r3 : Bool := false
  l3 : Bool := false
  start : Bool := false
  up : Bool := false
  right : Bool := false
  down : Bool := false
  left : Bool := false
  l2 : Bool := false
  r2 : Bool := false
  l1 : Bool := false
  r1 : Bool := false
  b : Bool := false
  d : Bool := false
  a : Bool := false
  c : Bool := false
deriving DecidableEq, Repr

/-- The named master-command codes of R67, a closed list that the block does not check values against. -/
inductive MasterCommand where
  | torqueAllOff | updateYawCenter | enterTrimMode | clearServoErrorId
  | boardTransmitActive | boardTransmitPassive | resetMrdTimer
deriving DecidableEq, Repr

/-- The pseudo-instructions of R88. -/
inductive Pseudo where
  /-- CLR_BTN: release every button. -/
  | clrBtn
  /-- SET_MCMD with a name of R67. -/
  | setMcmdName (name : MasterCommand)
  /-- PEEK_NEXTSEQ: what SEND would number a frame, by three commands. -/
  | peekNextSeq
  /-- FRAME_OK: would OUT pass a peer's checksum test. -/
  | frameOk
deriving DecidableEq, Repr

end Sys2Proof
end

