-- ==== Sys2Proof/WellFormed.lean ====
section
/-! DEFINITION. The checks an operation or an assembler operand passes before it is given to the block:
which port may carry which operation (spec/60_exceptions.md R206) and the ranges of the assembler's
operands (spec/30_encoding.md R86). The widths of fields are in the types of `Instr`, and the range tests on
`IDX` are part of a command's execution, not of its form (R81). -/

namespace Sys2Proof

/-- Operation `i` can be issued on the port of agent `a`: the command port issues only the 26 commands, the
RX port delivers only datagrams (R206). -/
def WellFormed (a : Agent) (i : Instr) : Bool := i.agent == a

/-- R86: a 16-bit operand `v` must satisfy -32768 <= v <= 65535. -/
def operandInRange (v : Int) : Bool := decide (-32768 ≤ v) && decide (v ≤ 65535)

/-- R86: an index must satisfy 0 <= v <= 255. -/
def indexInRange (v : Int) : Bool := decide (0 ≤ v) && decide (v ≤ 255)

end Sys2Proof
end

