-- ==== Sys2Proof/Decode.lean ====
section
/-! DEFINITION. Decoding, total on whatever a port presents (spec/30_encoding.md R75, R76, R80 to R83), and
the encoder written from the same tables. -/

namespace Sys2Proof

/-- R75: `OP = cmd[63:56]`. -/
def opField (w : CommandWord) : Byte := w.extractLsb' 56 8
/-- R75: `IDX = cmd[55:48]`. -/
def idxField (w : CommandWord) : Byte := w.extractLsb' 48 8
/-- R75: `A = cmd[47:32]`. -/
def aField (w : CommandWord) : Word := w.extractLsb' 32 16
/-- R75: `B = cmd[31:16]`. -/
def bField (w : CommandWord) : Word := w.extractLsb' 16 16
/-- R75: `C = cmd[15:0]`. -/
def cField (w : CommandWord) : Word := w.extractLsb' 0 16

/-- Why a command word has no command. -/
inductive DecodeError where
  /-- R82: `OP` is 0x00 or 0x1B to 0xFF. The step answers it with ILLEGAL_COMMAND, as the rule says. -/
  | illegalCommand (op : Byte)
deriving DecidableEq, Repr

/-- R81: the command of a 64-bit word, from the opcode map R80 and the operand table R76; fields a command
does not use are not read (R83). -/
def decodeCommand (w : CommandWord) : Except DecodeError Instr :=
  match (opField w).toNat with
  | 0x01 => .ok (.setMcmd (aField w))
  | 0x02 => .ok (.setSeq (aField w))
  | 0x03 => .ok (.setAcc (aField w) (bField w) (cField w))
  | 0x04 => .ok (.setGyro (aField w) (bField w) (cField w))
  | 0x05 => .ok (.setMag (aField w) (bField w) (cField w))
  | 0x06 => .ok (.setTemp (aField w))
  | 0x07 => .ok (.setOri (aField w) (bField w) (cField w))
  | 0x08 => .ok (.setBtn (aField w))
  | 0x09 => .ok (.setLstick (aField w) (bField w))
  | 0x0A => .ok (.setRstick (aField w) (bField w))
  | 0x0B => .ok (.setTrig (aField w) (bField w))
  | 0x0C => .ok (.setMcnt (aField w) (bField w))
  | 0x0D => .ok (.setMotion (idxField w) (aField w) (bField w) (cField w))
  | 0x0E => .ok (.setUser (idxField w) (aField w))
  | 0x0F => .ok (.errSet (aField w))
  | 0x10 => .ok .errClr
  | 0x11 => .ok .csumOut
  | 0x12 => .ok .csumIn
  | 0x13 => .ok .valOut
  | 0x14 => .ok .valIn
  | 0x15 => .ok .finalize
  | 0x16 => .ok (.seqNext (aField w) (bField w))
  | 0x17 => .ok .send
  | 0x18 => .ok (.rdOut (idxField w))
  | 0x19 => .ok (.rdIn (idxField w))
  | 0x1A => .ok .rdStat
  | _ => .error (.illegalCommand (opField w))

/-- The operation a port presents: a command word decodes by R81, every byte list is an RX_DATAGRAM (R80). -/
def decode : PortInput → Except DecodeError Instr
  | .command w => decodeCommand w
  | .datagram bytes => .ok (.rxDatagram bytes)

/-- R75: the command word with the given fields. -/
def mkCommand (op idx : Byte) (a b c : Word) : CommandWord := op ++ idx ++ a ++ b ++ c

/-- What is presented for an operation: its command word with 0 in the unused fields (R80, R76, R83), or its
bytes on the RX port. -/
def encode : Instr → PortInput
  | .setMcmd code => .command (mkCommand 0x01 0 code 0 0)
  | .setSeq seq => .command (mkCommand 0x02 0 seq 0 0)
  | .setAcc x y z => .command (mkCommand 0x03 0 x y z)
  | .setGyro x y z => .command (mkCommand 0x04 0 x y z)
  | .setMag x y z => .command (mkCommand 0x05 0 x y z)
  | .setTemp t => .command (mkCommand 0x06 0 t 0 0)
  | .setOri roll pitch yaw => .command (mkCommand 0x07 0 roll pitch yaw)
  | .setBtn buttons => .command (mkCommand 0x08 0 buttons 0 0)
  | .setLstick horizontal vertical => .command (mkCommand 0x09 0 horizontal vertical 0)
  | .setRstick horizontal vertical => .command (mkCommand 0x0A 0 horizontal vertical 0)
  | .setTrig first second => .command (mkCommand 0x0B 0 first second 0)
  | .setMcnt first second => .command (mkCommand 0x0C 0 first second 0)
  | .setMotion idx sub1 sub2 value => .command (mkCommand 0x0D idx sub1 sub2 value)
  | .setUser idx value => .command (mkCommand 0x0E idx value 0 0)
  | .errSet code => .command (mkCommand 0x0F 0 code 0 0)
  | .errClr => .command (mkCommand 0x10 0 0 0 0)
  | .csumOut => .command (mkCommand 0x11 0 0 0 0)
  | .csumIn => .command (mkCommand 0x12 0 0 0 0)
  | .valOut => .command (mkCommand 0x13 0 0 0 0)
  | .valIn => .command (mkCommand 0x14 0 0 0 0)
  | .finalize => .command (mkCommand 0x15 0 0 0 0)
  | .seqNext localSeq remoteSeq => .command (mkCommand 0x16 0 localSeq remoteSeq 0)
  | .send => .command (mkCommand 0x17 0 0 0 0)
  | .rdOut idx => .command (mkCommand 0x18 idx 0 0 0)
  | .rdIn idx => .command (mkCommand 0x19 idx 0 0 0)
  | .rdStat => .command (mkCommand 0x1A 0 0 0 0)
  | .rxDatagram bytes => .datagram bytes

/-- The agent whose port presents an input (R13.1). -/
def portAgent : PortInput → Agent
  | .command _ => .host
  | .datagram _ => .rx

/-- What a row of spec/opcode_table.json presents: 64 bits are a command word (R75: there is one length); a
row of any other width has no command word, and its bits are the bytes of a datagram, least significant byte
first. The table's one such row is RX_DATAGRAM, which has no bits at all. Log entry 5. -/
def tableInput (nbits w : Nat) : PortInput :=
  if nbits = Config.cmdBits then .command (BitVec.ofNat 64 w)
  else .datagram ((List.range (nbits / 8)).map fun k => BitVec.ofNat 8 (w / 256 ^ k))

/-- The instruction the decoder reads from a row's bits, none where it refuses. -/
def decodeTableWord (nbits w : Nat) : Option Instr :=
  match decode (tableInput nbits w) with
  | .ok i => some i
  | .error _ => none

end Sys2Proof
end

