-- ==== Sys2Proof/Machine/State.lean ====
section
/-! DEFINITION. The state of frame_codec as plain data (spec/10_state.md R20 to R31, spec/00_scope.md R13,
R14), the status codes of its responses (spec/60_exceptions.md R190) and the state after reset
(spec/70_reset_and_hazards.md R220). -/

namespace Sys2Proof.Machine

/-- A frame: 90 words (R5, R60). -/
abbrev Frame := Vector Word 90

/-- A word offset into a frame, 0 to 89; offsets 90 and above do not exist (R46). -/
abbrev Offset := Fin 90

/-- R20, R21: the frame buffer after reset. -/
def zeroFrame : Frame := Vector.replicate 90 0

/-- The status of a response or RX response (R190); their numbers are `statusCode` in Machine/Flags.lean. -/
inductive Status where
  | ok
  | lengthMismatch
  | checksumError
  | indexOutOfRange
  | userDataIndexInvalid
  | illegalCommand
  | badOffset
deriving DecidableEq, Repr

/-- The response every HOST command ends with (R11, R78). -/
structure Response where
  status : Status
  data : Word
deriving DecidableEq, Repr

/-- The RX response every datagram ends with (R11, R79). -/
structure RxResponse where
  status : Status
  adopted : Bool
deriving DecidableEq, Repr

/-- The machine. `out`, `inb`, `link` and `fault` are the whole state of the block (R13.2, R14); `txh`, `rsps`
and `rxrsps` record its outputs in order; `cmds`, `dgrams` and `draws` are the model's own: what the
environment has offered and the block has not yet taken, and how often the open order of the agents has
been drawn (log entries 1, 2, 4). -/
structure State where
  /-- OUT, the outbound frame (R20). -/
  out : Frame
  /-- IN, the inbound frame (R21). -/
  inb : Frame
  /-- LINK: false is IDLE, true is ACTIVE (R24). -/
  link : Bool
  /-- FAULT, the sticky record of a hard error (R25). -/
  fault : Bool
  /-- TXH, the datagrams emitted since reset, oldest first (R31). -/
  txh : List Datagram
  /-- The responses given on the command port, oldest first (R11). -/
  rsps : List Response
  /-- The responses given on the RX port, oldest first (R11). -/
  rxrsps : List RxResponse
  /-- MODEL: command words offered and not yet taken, oldest first. -/
  cmds : List CommandWord
  /-- MODEL: datagrams delivered and not yet taken, oldest first. -/
  dgrams : List Datagram
  /-- MODEL: how many contested steps have been settled, the argument of `Config.arbOrder`. -/
  draws : Nat
deriving DecidableEq, Repr

/-- No step of this machine faults: "No operation traps, hangs or yields an undefined result" (R13.5). The
errors of R190 are completions with a status, not stops. Hence no constructor (log entry 7). -/
inductive Fault where
deriving DecidableEq, Repr

/-- Why a step has no meaning. -/
inductive Refusal where
  /-- An instruction without a meaning in this model, by its mnemonic: safe. Raised by no arm of `exec`. -/
  | notModelled (mnemonic : String)
deriving DecidableEq, Repr

/-- The outcome of a step of this machine. -/
abbrev StepResult := Host.Outcome State Fault Refusal

/-- R220, R221: the state after reset. Both frames are zero, LINK is IDLE, FAULT is 0 and TXH is empty. The
spec names no reset for the response records and the model's own fields: they begin empty and at 0 (log
entries 1, 2, 4, DESIGN CHOICE). -/
def State.reset : State where
  out := zeroFrame
  inb := zeroFrame
  link := false
  fault := false
  txh := []
  rsps := []
  rxrsps := []
  cmds := []
  dgrams := []
  draws := 0

end Sys2Proof.Machine
end

