-- ==== Sys2Proof/Machine/Operands.lean ====
section
/-! DEFINITION. The operand functions of frame_codec: the pure functions of spec/00_scope.md R9, the packing
of spec/40_pack.md R113, the word offsets of spec/30_encoding.md R60, the button mask R62, R74, the master
command codes R67, and the reading and writing of one word of a frame (R10). -/

namespace Sys2Proof.Machine

/-- R9 `w16(v)`: the integer masked to 16 bits. -/
def w16 (v : Int) : Word := BitVec.ofInt 16 v
/-- R9 `b8(v)`: the integer masked to 8 bits. -/
def b8 (v : Int) : Byte := BitVec.ofInt 8 v
/-- R9 `hi8(w) = w[15:8]`. -/
def hi8 (w : Word) : Byte := w.extractLsb' 8 8
/-- R9 `lo8(w) = w[7:0]`. -/
def lo8 (w : Word) : Byte := w.extractLsb' 0 8
/-- R9 `sext_16(w)`. -/
def sext16 (w : Word) : Int := if w.toNat < 32768 then (w.toNat : Int) else (w.toNat : Int) - 65536
/-- R9 `sext_8(b)`. -/
def sext8 (b : Byte) : Int := if b.toNat < 128 then (b.toNat : Int) else (b.toNat : Int) - 256
/-- R9 `zext_16` of a byte. -/
def zext16 (b : Byte) : Word := b.setWidth 16
/-- R9 `neg16(s)`, by the source's form `(~s + 1) & 0xFFFF`. -/
def neg16 (s : Word) : Word := ~~~s + 1
/-- R9 `pack88(a, b)` of two integers: each masked on its own, `a` in the high byte. -/
def pack88Int (a b : Int) : Word := b8 a ++ b8 b
/-- R113 `pack88(A, B) = {A[7:0], B[7:0]}` of two 16-bit operand fields; bits 15:8 of each are discarded
(R72). -/
def pack88 (a b : Word) : Word := lo8 a ++ lo8 b

/-- R60, offset of the master command. -/
def offMcmd : Offset := 0
/-- R60, offset of the sequence number (R5 `SEQ_OFF`). -/
def offSeq : Offset := 1
/-- R60, R61: first offset of the acceleration. -/
def offAcc : Fin 88 := 2
/-- R60, R61: first offset of the gyroscope. -/
def offGyro : Fin 88 := 5
/-- R60, R61: first offset of the magnetometer. -/
def offMag : Fin 88 := 8
/-- R60, offset of the temperature. -/
def offTemp : Offset := 11
/-- R60, R61: first offset of the orientation estimate. -/
def offOri : Fin 88 := 12
/-- R60, offset of the button bitmask. -/
def offBtn : Offset := 15
/-- R60, offset of the left stick. -/
def offLstick : Offset := 16
/-- R60, offset of the right stick. -/
def offRstick : Offset := 17
/-- R60, offset of the analog trigger pair. -/
def offTrig : Offset := 18
/-- R60, offset of the motion frame counts. -/
def offMcnt : Offset := 19
/-- R60, offset of the error word (R5 `ERR_OFF`). -/
def offErr : Offset := 88
/-- R60, offset of the checksum (R5 `CSUM_OFF`). -/
def offCsum : Offset := 89
/-- R64: word A of motion entry `e` is at `20 + 2e`. -/
def motionOffA (e : Fin 30) : Offset := ⟨Config.motionBase + 2 * e.val, by simp; omega⟩
/-- R64: word B of motion entry `e` is at `21 + 2e`. -/
def motionOffB (e : Fin 30) : Offset := ⟨Config.motionBase + 1 + 2 * e.val, by simp; omega⟩
/-- R65: user slot `j` is at `80 + j`. -/
def userOff (j : Fin 8) : Offset := ⟨Config.userBase + j.val, by simp; omega⟩

/-- R73: an unsigned 8-bit index tested against a bound; none when it is out of range. -/
def checkIndex (n : Nat) (idx : Byte) : Option (Fin n) :=
  if h : idx.toNat < n then some ⟨idx.toNat, h⟩ else none

/-- R10: word `i` of a frame. -/
def Frame.word (F : Frame) (i : Offset) : Word := F.get i
/-- R10 `F[i] <- w`: the frame with word `i` replaced. -/
def Frame.put (F : Frame) (i : Offset) (w : Word) : Frame := F.set i.val w i.isLt
/-- R61: three words written at `i`, `i + 1`, `i + 2`, the first named component lowest. -/
def Frame.put3 (F : Frame) (i : Fin 88) (x y z : Word) : Frame :=
  Frame.put (Frame.put (Frame.put F ⟨i.val, by omega⟩ x) ⟨i.val + 1, by omega⟩ y) ⟨i.val + 2, by omega⟩ z

/-- R62: the bit of a button. -/
def buttonBit : Button → Nat
  | .select => 0 | .r3 => 1 | .l3 => 2 | .start => 3
  | .up => 4 | .right => 5 | .down => 6 | .left => 7
  | .l2 => 8 | .r2 => 9 | .l1 => 10 | .r1 => 11
  | .b => 12 | .d => 13 | .a => 14 | .c => 15

/-- R62: the word of a set of pressed buttons, the OR of their values. -/
def buttonWord (pressed : List Button) : Word :=
  pressed.foldr (fun k w => w ||| (1 : Word) <<< buttonBit k) 0

/-- The buttons of a snapshot with their states, in the order of R62. -/
def snapshotRows (k : ButtonSnapshot) : List (Button × Bool) :=
  [(.select, k.select), (.r3, k.r3), (.l3, k.l3), (.start, k.start),
   (.up, k.up), (.right, k.right), (.down, k.down), (.left, k.left),
   (.l2, k.l2), (.r2, k.r2), (.l1, k.l1), (.r1, k.r1),
   (.b, k.b), (.d, k.d), (.a, k.a), (.c, k.c)]

/-- R74 `btn_pack`: the sum over the pressed buttons of `2^k`. -/
def btnPack (k : ButtonSnapshot) : Word :=
  BitVec.ofNat 16 (((snapshotRows k).map fun r => if r.2 then 2 ^ buttonBit r.1 else 0).sum)

/-- R67: the code of a named master command. -/
def masterCommandCode : MasterCommand → Word
  | .torqueAllOff => 0
  | .updateYawCenter => 10002
  | .enterTrimMode => 10003
  | .clearServoErrorId => 10004
  | .boardTransmitActive => 10005
  | .boardTransmitPassive => 10006
  | .resetMrdTimer => 10007

end Sys2Proof.Machine
end

