-- ==== Sys2Proof/Machine/Codec.lean ====
section
/-! DEFINITION. The codec functions of spec/41_checksum.md section 1 (R130 to R133), over the wire byte order
of spec/20_memory.md R41, and the sequence functions of spec/42_sequence.md section 1 (R150 to R153). -/

namespace Sys2Proof.Machine

/-- R9 `sum16(ws)`: the sum of the words, taken modulo 65536 at the end. -/
def sum16 (ws : List Word) : Word := BitVec.ofNat 16 (ws.map BitVec.toNat).sum

/-- R130: the negated 16-bit sum of words 0 to 88. -/
def computeChecksum (F : Frame) : Word := neg16 (sum16 (F.toList.take Config.csumSpan))

/-- R131: true iff the 16-bit sum of all 90 words is 0. -/
def validate (F : Frame) : Bool := sum16 F.toList == 0

/-- R137 `finalize(frame)`: the checksum written into word 89. -/
def finalizeFrame (F : Frame) : Frame := Frame.put F offCsum (computeChecksum F)

/-- R132, R41: each word as two bytes, low byte first, words in ascending offset. -/
def encodeBytes (F : Frame) : Datagram := F.toList.flatMap fun w => [lo8 w, hi8 w]

/-- R133, R41: `F[i] = bs[2i] | (bs[2i+1] << 8)`. -/
def wordsOfBytes (bs : Datagram) : Frame :=
  Vector.ofFn fun i : Offset => bs.getD (2 * i.val + 1) 0 ++ bs.getD (2 * i.val) 0

/-- R28, R6 `RX_LEN_SAT`: the length the RX staging counter shows for a datagram. -/
def rxLenCount (bs : Datagram) : Nat := min bs.length Config.rxLenSat

/-- R133: length test, then words, then checksum test; the first that fails is the error. -/
def decodeDatagram (bs : Datagram) : Except Status Frame :=
  if rxLenCount bs ≠ Config.frameBytes then .error .lengthMismatch
  else if validate (wordsOfBytes bs) then .ok (wordsOfBytes bs)
  else .error .checksumError

/-- R150: plain unsigned comparison. -/
def seqGt (a b : Word) : Bool := decide (b.toNat < a.toNat)

/-- R151. -/
def seqMax (a b : Word) : Word := if seqGt a b then a else b

/-- R152: the increment that wraps to 0 at 59999 and above. -/
def seqInc (b : Word) : Word := if Config.seqLast ≤ b.toNat then 0 else b + 1

/-- R153. -/
def nextSequence (localSeq remoteSeq : Word) : Word := seqInc (seqMax localSeq remoteSeq)

end Sys2Proof.Machine
end

