-- ==== Sys2Proof/Machine/Flags.lean ====
section
/-! DEFINITION. The two flags LINK and FAULT and the STATUS view of them (spec/10_state.md R24 to R26), the
numbers and classes of the status codes (spec/60_exceptions.md R190, R198), and the level outputs of
spec/30_encoding.md R89. -/

namespace Sys2Proof.Machine

/-- R190: the 4-bit number of a status; 7 to 15 are never produced. -/
def statusCode : Status → BitVec 4
  | .ok => 0
  | .lengthMismatch => 1
  | .checksumError => 2
  | .indexOutOfRange => 3
  | .userDataIndexInvalid => 4
  | .illegalCommand => 5
  | .badOffset => 6

/-- R198: the hard errors are codes 3, 5 and 6. -/
def isHardError : Status → Bool
  | .ok => false
  | .lengthMismatch => false
  | .checksumError => false
  | .indexOutOfRange => true
  | .userDataIndexInvalid => false
  | .illegalCommand => true
  | .badOffset => true

/-- R78: the 20 bits of a response, `rsp[19:16] = status`, `rsp[15:0] = data`. -/
def responseBits (r : Response) : BitVec 20 := statusCode r.status ++ r.data

/-- R26, R183: `{14 zero bits, FAULT, LINK}`. -/
def statusWord (link fault : Bool) : Word := 0#14 ++ BitVec.ofBool fault ++ BitVec.ofBool link

/-- R24, R185: LINK becomes ACTIVE; setting it again changes nothing. -/
def State.activateLink (s : State) : State := { s with link := true }

/-- R25, R198: FAULT becomes 1 if the status is a hard error, and is otherwise unchanged; nothing clears it. -/
def State.recordFault (s : State) (e : Status) : State := { s with fault := s.fault || isHardError e }

/-- R89: the level output `link_active`. -/
def State.linkActivePin (s : State) : Bool := s.link

/-- R89: the level output `fault`. -/
def State.faultPin (s : State) : Bool := s.fault

end Sys2Proof.Machine
end

