-- ==== Sys2Proof/Machine/Ops.lean ====
section
/-! DEFINITION. The shared operations of frame_codec: writing OUT, completing an operation, the one error
operation `State.raise` (spec/00_scope.md R11, spec/60_exceptions.md R203), emitting a datagram, and what the
environment does to the ports (spec/70_reset_and_hazards.md R239). There is no return from an error: after any
response the block is ready for the next operation (R205). -/

namespace Sys2Proof.Machine

/-- R10, R40: one word of OUT is written. -/
def State.writeOut (s : State) (i : Offset) (w : Word) : State := { s with out := Frame.put s.out i w }

/-- R40, R44: three consecutive words of OUT are written together. -/
def State.writeOut3 (s : State) (i : Fin 88) (x y z : Word) : State :=
  { s with out := Frame.put3 s.out i x y z }

/-- R11: a HOST command completes with one response. -/
def State.respond (s : State) (st : Status) (data : Word) : State :=
  { s with rsps := s.rsps ++ [⟨st, data⟩] }

/-- R11: an RX datagram completes with one RX response. -/
def State.rxRespond (s : State) (st : Status) (adopted : Bool) : State :=
  { s with rxrsps := s.rxrsps ++ [⟨st, adopted⟩] }

/-- A HOST command completes normally (R11, R78). -/
def State.finish (s : State) (data : Word) : StepResult := .next (s.respond .ok data)

/-- R11 `raise`, R203: the operation of agent `a` is abandoned with status `e`. FAULT is set iff `e` is hard,
the response is given on the agent's port, and nothing else happens: no frame, no LINK, no datagram. -/
def State.raise (s : State) (a : Agent) (e : Status) (info : Word) : State :=
  match a with
  | .host => (s.recordFault e).respond e info
  | .rx => (s.recordFault e).rxRespond e false

/-- R82, R195: what a command word outside the opcode map does. -/
def State.illegalCommand (s : State) (op : Byte) : State := s.raise .host .illegalCommand (zext16 op)

/-- R12 `emit TX(bytes)`. -/
def State.emit (s : State) (bytes : Datagram) : State := { s with txh := s.txh ++ [bytes] }

/-- R175 steps 4 to 7, `on_receive`: the accepted frame replaces IN, LINK becomes ACTIVE, and OUT is replaced
too when the frame's sequence number is strictly greater than OUT's. All 90 words are copied, the error word
and the checksum word included (R167, R176 c). -/
def State.receive (s : State) (F : Frame) : State :=
  let adopted := seqGt (Frame.word F offSeq) (Frame.word s.out offSeq)
  { s with inb := F, link := true, out := if adopted then F else s.out,
           rxrsps := s.rxrsps ++ [⟨.ok, adopted⟩] }

/-- R170: OUT as SEND leaves it: the next sequence number in word 1, then the checksum in word 89. -/
def sendFrame (out inb : Frame) : Frame :=
  finalizeFrame (Frame.put out offSeq (nextSequence (Frame.word out offSeq) (Frame.word inb offSeq)))

/-- R239: the HOST presents a command word; it waits behind those it presented before (R47). -/
def State.offerCommand (s : State) (w : CommandWord) : State := { s with cmds := s.cmds ++ [w] }

/-- R239: a datagram is delivered on the RX port; it waits behind those delivered before (R47). -/
def State.offerDatagram (s : State) (bs : Datagram) : State := { s with dgrams := s.dgrams ++ [bs] }

/-- The next operation in the block's total order (R47, R48) and the state with it taken from its port: the
oldest of the one agent that has something ready, or, when both have, of the agent the open `ARB_ORDER`
names; none when nothing is ready. -/
def State.takeInput (s : State) : Option (PortInput × State) :=
  match s.cmds, s.dgrams with
  | [], [] => none
  | w :: ws, [] => some (.command w, { s with cmds := ws })
  | [], d :: ds => some (.datagram d, { s with dgrams := ds })
  | w :: ws, d :: ds =>
    match Config.arbOrder s.draws with
    | .host => some (.command w, { s with cmds := ws, draws := s.draws + 1 })
    | .rx => some (.datagram d, { s with dgrams := ds, draws := s.draws + 1 })

/-- `s` with input `p` first in line on its port and nothing ready on the other, so that it is taken next. -/
def State.placeInput (s : State) (p : PortInput) : State :=
  match p with
  | .command w => { s with cmds := w :: s.cmds, dgrams := [] }
  | .datagram bs => { s with dgrams := bs :: s.dgrams, cmds := [] }

end Sys2Proof.Machine
end

