-- ==== Sys2Proof/Machine/Checksum.lean ====
section
/-! DEFINITION. The commands of the checksum engine, spec/41_checksum.md section 2. -/

namespace Sys2Proof.Machine

/-- R135: `rsp(OK, compute_checksum(OUT))`, nothing written. -/
def execCsumOut (s : State) : StepResult := s.finish (computeChecksum s.out)

/-- R136: `rsp(OK, compute_checksum(IN))`, nothing written. -/
def execCsumIn (s : State) : StepResult := s.finish (computeChecksum s.inb)

/-- R138: `rsp(OK, 1 if validate(OUT) else 0)`; an invalid frame is no error. -/
def execValOut (s : State) : StepResult := s.finish (if validate s.out then 1 else 0)

/-- R139: `rsp(OK, 1 if validate(IN) else 0)`. -/
def execValIn (s : State) : StepResult := s.finish (if validate s.inb then 1 else 0)

/-- R137: `OUT[89] <- compute_checksum(OUT)`, answered in the response. -/
def execFinalize (s : State) : StepResult :=
  let c := computeChecksum s.out
  (s.writeOut offCsum c).finish c

end Sys2Proof.Machine
end

