-- ==== Sys2Proof/Machine/Link.lean ====
section
/-! DEFINITION. The frame-state buffer controller and merge arbiter, spec/43_link.md. -/

namespace Sys2Proof.Machine

/-- R165: `OUT[88] <- OUT[88] | A`. -/
def execErrSet (code : Word) (s : State) : StepResult :=
  (s.writeOut offErr (Frame.word s.out offErr ||| code)).finish 0

/-- R166: `OUT[88] <- 0`; FAULT is unrelated and unchanged. -/
def execErrClr (s : State) : StepResult := (s.writeOut offErr 0).finish 0

/-- R170: number OUT, finalize it, emit it, activate the link, answer the number; one step that cannot fail. -/
def execSend (s : State) : StepResult :=
  let seq := nextSequence (Frame.word s.out offSeq) (Frame.word s.inb offSeq)
  let F := sendFrame s.out s.inb
  ((State.emit { s with out := F } (encodeBytes F)).activateLink).finish seq

/-- R175: decode the bytes; drop them with an RX response, or receive the frame. -/
def execRxDatagram (bytes : Datagram) (s : State) : StepResult :=
  match decodeDatagram bytes with
  | .error e => .next (s.raise .rx e 0)
  | .ok F => .next (s.receive F)

/-- R180: word IDX of OUT, or BAD_OFFSET when IDX >= 90. -/
def execRdOut (idx : Byte) (s : State) : StepResult :=
  match checkIndex 90 idx with
  | none => .next (s.raise .host .badOffset (zext16 idx))
  | some i => s.finish (Frame.word s.out i)

/-- R181: word IDX of IN, or BAD_OFFSET when IDX >= 90. -/
def execRdIn (idx : Byte) (s : State) : StepResult :=
  match checkIndex 90 idx with
  | none => .next (s.raise .host .badOffset (zext16 idx))
  | some i => s.finish (Frame.word s.inb i)

/-- R183: the status word; reading it clears nothing. -/
def execRdStat (s : State) : StepResult := s.finish (statusWord s.link s.fault)

end Sys2Proof.Machine
end

