-- ==== Sys2Proof/Machine/Pack.lean ====
section
/-! DEFINITION. The payload packer, spec/40_pack.md: the 14 `SET_*` commands. Each writes only the words of OUT
its rule names, leaves the checksum word stale (R116 a, b), and answers `rsp(OK, 0)` (R116 d). -/

namespace Sys2Proof.Machine

/-- R100: `OUT[0] <- A`. -/
def execSetMcmd (code : Word) (s : State) : StepResult := (s.writeOut offMcmd code).finish 0

/-- R101: `OUT[1] <- A`, any value (R68). -/
def execSetSeq (seq : Word) (s : State) : StepResult := (s.writeOut offSeq seq).finish 0

/-- R102: `OUT[2..4] <- A, B, C`. -/
def execSetAcc (x y z : Word) (s : State) : StepResult := (s.writeOut3 offAcc x y z).finish 0

/-- R103: `OUT[5..7] <- A, B, C`. -/
def execSetGyro (x y z : Word) (s : State) : StepResult := (s.writeOut3 offGyro x y z).finish 0

/-- R104: `OUT[8..10] <- A, B, C`. -/
def execSetMag (x y z : Word) (s : State) : StepResult := (s.writeOut3 offMag x y z).finish 0

/-- R105: `OUT[11] <- A`. -/
def execSetTemp (t : Word) (s : State) : StepResult := (s.writeOut offTemp t).finish 0

/-- R106: `OUT[12..14] <- A, B, C`. -/
def execSetOri (roll pitch yaw : Word) (s : State) : StepResult := (s.writeOut3 offOri roll pitch yaw).finish 0

/-- R107: `OUT[15] <- A`, the whole word. -/
def execSetBtn (buttons : Word) (s : State) : StepResult := (s.writeOut offBtn buttons).finish 0

/-- R109: `OUT[16] <- pack88(A, B)`. -/
def execSetLstick (horizontal vertical : Word) (s : State) : StepResult :=
  (s.writeOut offLstick (pack88 horizontal vertical)).finish 0

/-- R110: `OUT[17] <- pack88(A, B)`. -/
def execSetRstick (horizontal vertical : Word) (s : State) : StepResult :=
  (s.writeOut offRstick (pack88 horizontal vertical)).finish 0

/-- R111: `OUT[18] <- pack88(A, B)`. -/
def execSetTrig (first second : Word) (s : State) : StepResult :=
  (s.writeOut offTrig (pack88 first second)).finish 0

/-- R112: `OUT[19] <- pack88(A, B)`. -/
def execSetMcnt (first second : Word) (s : State) : StepResult :=
  (s.writeOut offMcnt (pack88 first second)).finish 0

/-- R114: both words of motion entry IDX, or INDEX_OUT_OF_RANGE before any write when IDX >= 30. -/
def execSetMotion (idx : Byte) (sub1 sub2 value : Word) (s : State) : StepResult :=
  match checkIndex 30 idx with
  | none => .next (s.raise .host .indexOutOfRange (zext16 idx))
  | some e => ((s.writeOut (motionOffA e) (pack88 sub1 sub2)).writeOut (motionOffB e) value).finish 0

/-- R115: user slot IDX, or USER_DATA_INDEX_INVALID before any write when IDX >= 8. -/
def execSetUser (idx : Byte) (value : Word) (s : State) : StepResult :=
  match checkIndex 8 idx with
  | none => .next (s.raise .host .userDataIndexInvalid (zext16 idx))
  | some j => (s.writeOut (userOff j) value).finish 0

end Sys2Proof.Machine
end

