-- ==== Sys2Proof/Machine/Sequence.lean ====
section
/-! DEFINITION. The command of the sequence unit, spec/42_sequence.md section 2. -/

namespace Sys2Proof.Machine

/-- R155: `rsp(OK, next_sequence(A, B))` of the operands alone. -/
def execSeqNext (localSeq remoteSeq : Word) (s : State) : StepResult :=
  s.finish (nextSequence localSeq remoteSeq)

end Sys2Proof.Machine
end

