-- ==== Sys2Proof/Machine/Dispatch.lean ====
section
/-! DEFINITION. The dispatch: one arm per constructor of `Instr`. -/

namespace Sys2Proof.Machine

def exec (i : Instr) (s : State) : Host.Outcome State Fault Refusal :=
  match i with
  | .setMcmd code => Sys2Proof.Machine.execSetMcmd code s
  | .setSeq seq => Sys2Proof.Machine.execSetSeq seq s
  | .setAcc x y z => Sys2Proof.Machine.execSetAcc x y z s
  | .setGyro x y z => Sys2Proof.Machine.execSetGyro x y z s
  | .setMag x y z => Sys2Proof.Machine.execSetMag x y z s
  | .setTemp t => Sys2Proof.Machine.execSetTemp t s
  | .setOri roll pitch yaw => Sys2Proof.Machine.execSetOri roll pitch yaw s
  | .setBtn buttons => Sys2Proof.Machine.execSetBtn buttons s
  | .setLstick horizontal vertical => Sys2Proof.Machine.execSetLstick horizontal vertical s
  | .setRstick horizontal vertical => Sys2Proof.Machine.execSetRstick horizontal vertical s
  | .setTrig first second => Sys2Proof.Machine.execSetTrig first second s
  | .setMcnt first second => Sys2Proof.Machine.execSetMcnt first second s
  | .setMotion idx sub1 sub2 value => Sys2Proof.Machine.execSetMotion idx sub1 sub2 value s
  | .setUser idx value => Sys2Proof.Machine.execSetUser idx value s
  | .errSet code => Sys2Proof.Machine.execErrSet code s
  | .errClr => Sys2Proof.Machine.execErrClr s
  | .csumOut => Sys2Proof.Machine.execCsumOut s
  | .csumIn => Sys2Proof.Machine.execCsumIn s
  | .valOut => Sys2Proof.Machine.execValOut s
  | .valIn => Sys2Proof.Machine.execValIn s
  | .finalize => Sys2Proof.Machine.execFinalize s
  | .seqNext localSeq remoteSeq => Sys2Proof.Machine.execSeqNext localSeq remoteSeq s
  | .send => Sys2Proof.Machine.execSend s
  | .rdOut idx => Sys2Proof.Machine.execRdOut idx s
  | .rdIn idx => Sys2Proof.Machine.execRdIn idx s
  | .rdStat => Sys2Proof.Machine.execRdStat s
  | .rxDatagram bytes => Sys2Proof.Machine.execRxDatagram bytes s

end Sys2Proof.Machine
end

