-- ==== Sys2Proof/Machine/Transaction.lean ====
section
/-! DEFINITION. The two transaction functions of spec/00_scope.md R14: a command word or a datagram applied to
the state, with its response recorded in the state. -/

namespace Sys2Proof.Machine

/-- What the block does with an input it has taken: the operation it decodes to, or ILLEGAL_COMMAND for a
command word outside the opcode map (R81, R82). -/
def runInput (p : PortInput) (s : State) : StepResult :=
  match decode p with
  | .ok i => exec i s
  | .error (.illegalCommand op) => .next (s.illegalCommand op)

/-- R14 `step_host`; the response is the last of `rsps`, the datagram sent (if any) the last of `txh`. -/
def stepHost (s : State) (w : CommandWord) : StepResult := runInput (.command w) s

/-- R14 `step_rx`; the RX response is the last of `rxrsps`. -/
def stepRx (s : State) (bytes : Datagram) : StepResult := runInput (.datagram bytes) s

end Sys2Proof.Machine
end

