-- ==== Sys2Proof/Machine/Step.lean ====
section
/-! DEFINITION. One step of the machine: the next operation of the total order of spec/20_memory.md R47, R48,
taken from its port and executed atomically (R44). With nothing ready the block waits (log entry 3). -/

namespace Sys2Proof.Machine

def step (s : State) : Host.Outcome State Fault Refusal :=
  match s.takeInput with
  | none => .next s
  | some (p, t) => runInput p t

/-- The bits of a row of spec/opcode_table.json placed where the very next step takes its operation: first in
line on the port that carries them, with nothing ready on the other port. Log entries 1, 5. -/
def State.withFetchWord (s : State) (nbits w : Nat) : State := s.placeInput (tableInput nbits w)

end Sys2Proof.Machine
end

