-- ==== Sys2Proof/Machine/Assembler.lean ====
section
/-! DEFINITION. The assembler of spec/30_encoding.md R86, the symbolic operands of R87 and the expansion of the
pseudo-instructions of R88. What the rules leave to the reader of a line (blanks, letter case, malformed text)
is log entry 10. -/

namespace Sys2Proof.Machine

/-- R86: a 16-bit operand in range assembles to `w16(v)`. -/
def asmOperand (v : Int) : Option Word := if operandInRange v then some (w16 v) else none

/-- R86: an index in range assembles to itself. -/
def asmIndex (v : Int) : Option Byte := if indexInRange v then some (b8 v) else none

/-- A line of an assembler program: nothing, a command, a pseudo-instruction, or an RX event (R86, R88). -/
inductive AsmLine where
  | blank
  | command (i : Instr)
  | pseudo (p : Pseudo)
  | rxEvent (bytes : Datagram)
deriving DecidableEq, Repr

/-- R88: the commands of a pseudo-instruction; `a` and `b` are the data words its two reads answer, which only
PEEK_NEXTSEQ uses. -/
def expandPseudo (a b : Word) : Pseudo → List Instr
  | .clrBtn => [.setBtn 0]
  | .setMcmdName name => [.setMcmd (masterCommandCode name)]
  | .peekNextSeq => [.rdOut 1, .rdIn 1, .seqNext a b]
  | .frameOk => [.valOut]

/-- The operations of a line, in order. -/
def lineInstrs (a b : Word) : AsmLine → List Instr
  | .blank => []
  | .command i => [i]
  | .pseudo p => expandPseudo a b p
  | .rxEvent bytes => [.rxDatagram bytes]

/-- `frame{w<i>=<v>, …}` (R86 and spec/95_test_vectors.md): zero but for the words listed, then the checksum in
word 89. DESIGN CHOICE (log entry 10): an offset listed twice takes the later value, and a listed word 89 is
overwritten by the checksum. -/
def frameOf (ws : List (Offset × Word)) : Frame :=
  finalizeFrame (ws.foldl (fun F p => Frame.put F p.1 p.2) zeroFrame)

/-- R86: the commands without operands, then by the operands they take. -/
def asmCommand0 (i : Instr) : List Int → Option Instr
  | [] => some i
  | _ => none
/-- A command with operand A. -/
def asmCommand1 (k : Word → Instr) : List Int → Option Instr
  | [a] => (asmOperand a).map k
  | _ => none
/-- A command with operands A, B. -/
def asmCommand2 (k : Word → Word → Instr) : List Int → Option Instr
  | [a, b] => (asmOperand a).bind fun x => (asmOperand b).map fun y => k x y
  | _ => none
/-- A command with operands A, B, C. -/
def asmCommand3 (k : Word → Word → Word → Instr) : List Int → Option Instr
  | [a, b, c] => (asmOperand a).bind fun x => (asmOperand b).bind fun y => (asmOperand c).map fun z => k x y z
  | _ => none
/-- A command whose first operand is IDX, the rest by `rest`. -/
def asmIndexed (rest : Byte → List Int → Option Instr) : List Int → Option Instr
  | i :: ops => (asmIndex i).bind fun idx => rest idx ops
  | [] => none

/-- R76, R86: each mnemonic with its operands in the order IDX, A, B, C. -/
def asmTable : List (String × (List Int → Option Instr)) :=
  [("SET_MCMD", asmCommand1 .setMcmd), ("SET_SEQ", asmCommand1 .setSeq), ("SET_ACC", asmCommand3 .setAcc),
   ("SET_GYRO", asmCommand3 .setGyro), ("SET_MAG", asmCommand3 .setMag), ("SET_TEMP", asmCommand1 .setTemp),
   ("SET_ORI", asmCommand3 .setOri), ("SET_BTN", asmCommand1 .setBtn), ("SET_LSTICK", asmCommand2 .setLstick),
   ("SET_RSTICK", asmCommand2 .setRstick), ("SET_TRIG", asmCommand2 .setTrig),
   ("SET_MCNT", asmCommand2 .setMcnt), ("SET_MOTION", asmIndexed fun i => asmCommand3 (.setMotion i)),
   ("SET_USER", asmIndexed fun i => asmCommand1 (.setUser i)), ("ERR_SET", asmCommand1 .errSet),
   ("ERR_CLR", asmCommand0 .errClr), ("CSUM_OUT", asmCommand0 .csumOut), ("CSUM_IN", asmCommand0 .csumIn),
   ("VAL_OUT", asmCommand0 .valOut), ("VAL_IN", asmCommand0 .valIn), ("FINALIZE", asmCommand0 .finalize),
   ("SEQ_NEXT", asmCommand2 .seqNext), ("SEND", asmCommand0 .send),
   ("RD_OUT", asmIndexed fun i => asmCommand0 (.rdOut i)), ("RD_IN", asmIndexed fun i => asmCommand0 (.rdIn i)),
   ("RD_STAT", asmCommand0 .rdStat)]

/-- R67, R87: the names of master commands. -/
def masterCommandNames : List (String × MasterCommand) :=
  [("TORQUE_ALL_OFF", .torqueAllOff), ("UPDATE_YAW_CENTER", .updateYawCenter),
   ("ENTER_TRIM_MODE", .enterTrimMode), ("CLEAR_SERVO_ERROR_ID", .clearServoErrorId),
   ("BOARD_TRANSMIT_ACTIVE", .boardTransmitActive), ("BOARD_TRANSMIT_PASSIVE", .boardTransmitPassive),
   ("RESET_MRD_TIMER", .resetMrdTimer)]

/-- R62, R87: the names of buttons. -/
def buttonNames : List (String × Button) :=
  [("SELECT", .select), ("R3", .r3), ("L3", .l3), ("START", .start), ("UP", .up), ("RIGHT", .right),
   ("DOWN", .down), ("LEFT", .left), ("L2", .l2), ("R2", .r2), ("L1", .l1), ("R1", .r1), ("B", .b), ("D", .d),
   ("A", .a), ("C", .c)]

/-- The entry of a table under a name. -/
def lookupName {α : Type} (rows : List (String × α)) (name : List Char) : Option α :=
  (rows.find? fun r => r.1.toList == name).map (·.2)

/-- Space and tab separate the parts of a line (log entry 10). -/
def isBlank (c : Char) : Bool := c == ' ' || c == '\t'

/-- Text without blanks at its ends. -/
def trimBlanks (cs : List Char) : List Char :=
  ((cs.dropWhile isBlank).reverse.dropWhile isBlank).reverse

/-- The value of a digit in base 10 or 16; hexadecimal letters in either case (DESIGN CHOICE, log entry 10). -/
def digitValue (base : Nat) (c : Char) : Option Nat :=
  let n := c.toNat
  let v := if 48 ≤ n ∧ n ≤ 57 then n - 48
    else if 65 ≤ n ∧ n ≤ 70 then n - 55
    else if 97 ≤ n ∧ n ≤ 102 then n - 87
    else base
  if v < base then some v else none

/-- A non-empty run of digits. -/
def parseDigits (base : Nat) (cs : List Char) : Option Nat :=
  match cs with
  | [] => none
  | _ => cs.foldl (fun acc c => acc.bind fun n => (digitValue base c).map fun d => n * base + d) (some 0)

/-- R86: a decimal integer, optionally negative, or a hexadecimal `0x…`. DESIGN CHOICE (log entry 10): a sign
before a hexadecimal one, a plus sign and a capital X are malformed. -/
def parseOperand (cs : List Char) : Option Int :=
  match cs with
  | '-' :: ds => (parseDigits 10 ds).map fun n => -(n : Int)
  | '0' :: 'x' :: ds => (parseDigits 16 ds).map fun n => (n : Int)
  | ds => (parseDigits 10 ds).map fun n => (n : Int)

/-- Apply a reader to every part, all or none. -/
def readAll {α β : Type} (f : α → Option β) : List α → Option (List β)
  | [] => some []
  | x :: xs => (f x).bind fun y => (readAll f xs).map fun ys => y :: ys

/-- The parts of a comma-separated list; no text is no parts (DESIGN CHOICE, log entry 10). -/
def commaParts (cs : List Char) : List (List Char) :=
  if trimBlanks cs = [] then [] else (cs.splitOn ',').map trimBlanks

/-- The opening brace. -/
def openBrace : Char := Char.ofNat 123
/-- The closing brace. -/
def closeBrace : Char := Char.ofNat 125

/-- The text between braces, if the text is a braced one. -/
def bracedText (cs : List Char) : Option (List Char) :=
  match cs with
  | [] => none
  | c :: rest =>
    if c = openBrace ∧ rest.getLast? = some closeBrace then some rest.dropLast else none

/-- R87: a brace list of button names, or a number. DESIGN CHOICE (log entry 10): the empty list is no button, a
name listed twice is that button once. -/
def parseButtons (cs : List Char) : Option Word :=
  match bracedText cs with
  | some inner => (readAll (lookupName buttonNames) (commaParts inner)).map buttonWord
  | none => (parseOperand cs).bind asmOperand

/-- A word of a frame as `w<i>=<v>`. DESIGN CHOICE (log entry 10): a decimal offset below 90, a value as R86 has
it for a 16-bit operand, no blank beside the equals sign. -/
def parseFrameWord (cs : List Char) : Option (Offset × Word) :=
  match cs.splitOn '=' with
  | ['w' :: ds, vs] =>
    (parseDigits 10 ds).bind fun n =>
      if h : n < 90 then
        ((parseOperand vs).bind asmOperand).map fun w => (⟨n, h⟩, w)
      else none
  | _ => none

/-- Two hexadecimal digits a byte. DESIGN CHOICE (log entry 10): no digits at all are the datagram of zero bytes, so
an RX line with nothing after RX is that datagram and not malformed; an odd number of digits is malformed. -/
def parseHexBytes : List Char → Option Datagram
  | [] => some []
  | h :: l :: rest =>
    (digitValue 16 h).bind fun x => (digitValue 16 l).bind fun y =>
      (parseHexBytes rest).map fun bs => BitVec.ofNat 8 (16 * x + y) :: bs
  | _ => none

/-- R86: the operand of an RX event, hexadecimal bytes or `frame` with a brace list of words. DESIGN CHOICE (log
entry 10): blanks may stand between digits and before the brace, and the empty list is the zero frame. -/
def parseRx (cs : List Char) : Option Datagram :=
  match cs with
  | 'f' :: 'r' :: 'a' :: 'm' :: 'e' :: rest =>
    ((bracedText (trimBlanks rest)).bind fun inner => readAll parseFrameWord (commaParts inner)).map
      fun ws => encodeBytes (frameOf ws)
  | _ => parseHexBytes (cs.filter fun c => !isBlank c)

/-- R86 to R88: one line; none when it is malformed. -/
def parseLine (cs : List Char) : Option AsmLine :=
  let text := trimBlanks (cs.takeWhile (· != ';'))
  let name := text.takeWhile fun c => !isBlank c
  let rest := trimBlanks (text.drop name.length)
  if text = [] then some .blank
  else if name = "RX".toList then (parseRx rest).map .rxEvent
  else if name = "CLR_BTN".toList then if rest = [] then some (.pseudo .clrBtn) else none
  else if name = "PEEK_NEXTSEQ".toList then if rest = [] then some (.pseudo .peekNextSeq) else none
  else if name = "FRAME_OK".toList then if rest = [] then some (.pseudo .frameOk) else none
  else if name = "SET_BTN".toList then (parseButtons rest).map fun w => .command (.setBtn w)
  else
    match (if name = "SET_MCMD".toList then lookupName masterCommandNames rest else none) with
    | some m => some (.pseudo (.setMcmdName m))
    | none =>
      (lookupName asmTable name).bind fun k =>
        ((readAll parseOperand (commaParts rest)).bind k).map .command

/-- The inputs a line presents to the block; `a` and `b` as in `expandPseudo`. -/
def assembleLine (a b : Word) (cs : List Char) : Option (List PortInput) :=
  (parseLine cs).map fun l => (lineInstrs a b l).map encode

end Sys2Proof.Machine
end

