-- ==== Sys2Proof/Machine/Layout.lean ====
section
/-! DEFINITION. The frame layout of spec/30_encoding.md R60 to R66 as a table, and the typed reading of a word
(spec/40_pack.md R117). Reading functions serve laws and tests; they are no commands (R117). -/

namespace Sys2Proof.Machine

/-- The fields of R60, in the order of its table. -/
inductive Field where
  | masterCommand | sequenceNumber | acceleration | gyroscope | magnetometer | temperature | orientation
  | buttons | leftStick | rightStick | triggerPair | motionCounts | motionTable | userData | errorCode
  | checksum
deriving DecidableEq, Repr

/-- R60: each field with its first offset and its number of words. -/
def fieldRows : List (Field × Nat × Nat) :=
  [(.masterCommand, 0, 1), (.sequenceNumber, 1, 1), (.acceleration, 2, 3), (.gyroscope, 5, 3),
   (.magnetometer, 8, 3), (.temperature, 11, 1), (.orientation, 12, 3), (.buttons, 15, 1),
   (.leftStick, 16, 1), (.rightStick, 17, 1), (.triggerPair, 18, 1), (.motionCounts, 19, 1),
   (.motionTable, Config.motionBase, 2 * Config.motionEntries), (.userData, Config.userBase, Config.userSlots),
   (.errorCode, 88, 1), (.checksum, 89, 1)]

/-- The fields that hold offset `i`; R60 says there is exactly one. -/
def fieldsAt (i : Offset) : List Field :=
  (fieldRows.filter fun r => r.2.1 ≤ i.val && i.val < r.2.1 + r.2.2).map (·.1)

/-- A word read by its type (R117). -/
inductive FieldValue where
  /-- An unsigned 16-bit word or code. -/
  | unsigned (n : Nat)
  /-- A signed 16-bit word, through `sext16`. -/
  | signed (v : Int)
  /-- Two signed bytes, first in the high byte, through `sext8`. -/
  | signedPair (first second : Int)
  /-- Two bytes as they are, first in the high byte: the motion counts and sub-commands. -/
  | bytePair (first second : Byte)
  /-- Sixteen button booleans. -/
  | buttonSet (w : Word)
deriving DecidableEq, Repr

/-- R117: word `i` of a frame interpreted by the type column of R60. -/
def readTyped (F : Frame) (i : Offset) : FieldValue :=
  let w := Frame.word F i
  match fieldsAt i with
  | .acceleration :: _ => .signed (sext16 w)
  | .gyroscope :: _ => .signed (sext16 w)
  | .magnetometer :: _ => .signed (sext16 w)
  | .temperature :: _ => .signed (sext16 w)
  | .orientation :: _ => .signed (sext16 w)
  | .userData :: _ => .signed (sext16 w)
  | .buttons :: _ => .buttonSet w
  | .leftStick :: _ => .signedPair (sext8 (hi8 w)) (sext8 (lo8 w))
  | .rightStick :: _ => .signedPair (sext8 (hi8 w)) (sext8 (lo8 w))
  | .triggerPair :: _ => .signedPair (sext8 (hi8 w)) (sext8 (lo8 w))
  | .motionCounts :: _ => .bytePair (hi8 w) (lo8 w)
  | .motionTable :: _ =>
    if (i.val - Config.motionBase) % 2 = 0 then .bytePair (hi8 w) (lo8 w) else .signed (sext16 w)
  | .masterCommand :: _ => .unsigned w.toNat
  | .sequenceNumber :: _ => .unsigned w.toNat
  | .errorCode :: _ => .unsigned w.toNat
  | .checksum :: _ => .unsigned w.toNat
  | [] => .unsigned w.toNat

/-- R117: button `k` of a button word, read as `W[k]`. -/
def buttonPressed (w : Word) (k : Button) : Bool := w.getLsbD (buttonBit k)

end Sys2Proof.Machine
end

