-- ==== Sys2Proof/Safety.lean ====
section
/-! DEFINITION. What claims mean by a good state, and by runs: the invariant of IN (spec/10_state.md R23), the
shape of TXH (R31), and runs as any interleaving of the environment's offers and the block's steps
(spec/00_scope.md R14, spec/70_reset_and_hazards.md R239). -/

namespace Sys2Proof.Machine

/-- R23: IN holds a valid frame. -/
def InboundValid (s : State) : Prop := validate s.inb = true

/-- R31, R170: every datagram of TXH has 180 bytes and would be accepted by a peer. -/
def SentValid (s : State) : Prop :=
  ∀ d ∈ s.txh, d.length = Config.frameBytes ∧ ∃ F, decodeDatagram d = .ok F

/-- R25: FAULT is the record of hard errors: it is 1 iff a response so far had a hard status. -/
def FaultExact (s : State) : Prop := s.fault = s.rsps.any fun r => isHardError r.status

/-- R24, R185: LINK is ACTIVE iff a datagram has been sent or one has been accepted. -/
def LinkExact (s : State) : Prop :=
  s.link = (!s.txh.isEmpty || s.rxrsps.any fun r => r.status == .ok)

/-- The invariant of every state a run from reset reaches. -/
def Good (s : State) : Prop := InboundValid s ∧ SentValid s ∧ FaultExact s ∧ LinkExact s

/-- What can happen in a run: the environment offers something, or the block takes a step. -/
inductive Event where
  | offerCommand (w : CommandWord)
  | offerDatagram (bytes : Datagram)
  | stepBlock
deriving DecidableEq, Repr

/-- One event of a run. -/
def runEvent (e : Event) (s : State) : StepResult :=
  match e with
  | .offerCommand w => .next (s.offerCommand w)
  | .offerDatagram bytes => .next (s.offerDatagram bytes)
  | .stepBlock => step s

/-- The events of a run in order, stopping at the first fault or refusal. -/
def runEvents : List Event → State → StepResult
  | [], s => .next s
  | e :: es, s =>
    match runEvent e s with
    | .next t => runEvents es t
    | .fault r => .fault r
    | .refused r => .refused r

/-- Operations one after the other, stopping at the first fault or refusal: a stretch of a run in which these
are the operations, in this order (R47). -/
def execAll : List Instr → State → StepResult
  | [], s => .next s
  | i :: is, s =>
    match exec i s with
    | .next t => execAll is t
    | .fault r => .fault r
    | .refused r => .refused r

/-- Every command word with opcode `op` decodes to the instruction `k` makes of its fields (R81). -/
def DecodesTo (op : Byte) (k : CommandWord → Instr) : Prop := ∀ w, opField w = op → decodeCommand w = .ok (k w)

/-- R76, R75: the bits of a command word that the command of opcode `op` uses: `OP`, and the fields that the table of
R76 fills in for it. An opcode without a command uses `OP` alone (R82). -/
def usedBits (op : Byte) : CommandWord :=
  match op.toNat with
  | 0x01 | 0x02 | 0x06 | 0x08 | 0x0F => 0xFF00_FFFF_0000_0000
  | 0x03 | 0x04 | 0x05 | 0x07 => 0xFF00_FFFF_FFFF_FFFF
  | 0x09 | 0x0A | 0x0B | 0x0C | 0x16 => 0xFF00_FFFF_FFFF_0000
  | 0x0D => 0xFFFF_FFFF_FFFF_FFFF
  | 0x0E => 0xFFFF_FFFF_0000_0000
  | 0x18 | 0x19 => 0xFFFF_0000_0000_0000
  | _ => 0xFF00_0000_0000_0000

/-- R83, R72: of the bits used, those the block's behaviour can depend on: of an 8-bit operand only bits 7:0. The
8-bit operands are `A` and `B` of the pair setters and of SET_MOTION (R109 to R112, R114). -/
def effectiveBits (op : Byte) : CommandWord :=
  match op.toNat with
  | 0x09 | 0x0A | 0x0B | 0x0C => 0xFF00_00FF_00FF_0000
  | 0x0D => 0xFFFF_00FF_00FF_FFFF
  | _ => usedBits op

/-- From every state the operation completes with `rsp(OK, 0)`, writes the words of OUT that `new` gives a value
for (by word offset), and leaves every other word and every other field of the state as it was. -/
def WritesWords (i : Instr) (new : Nat → Option Word) : Prop :=
  ∀ s, ∃ t, exec i s = .next t ∧ t = { s with out := t.out, rsps := s.rsps ++ [⟨.ok, 0⟩] } ∧
    ∀ j, Frame.word t.out j = (new j.val).getD (Frame.word s.out j)

/-- From every state the operation completes with `rsp(OK, d)`, where `d` is read from the state, and changes
nothing but the record of responses. -/
def AnswersOnly (i : Instr) (d : State → Word) : Prop :=
  ∀ s, exec i s = .next { s with rsps := s.rsps ++ [⟨.ok, d s⟩] }

/-- From every state the operation completes with the error `e` and changes nothing but the record of responses
and, if `hard`, FAULT, which becomes 1 (R203). -/
def Rejects (i : Instr) (e : Status) (hard : Bool) (info : Word) : Prop :=
  ∀ s, exec i s = .next { s with fault := s.fault || hard, rsps := s.rsps ++ [⟨e, info⟩] }

/-- The 14 commands of the payload packer (40_pack.md). -/
def isSetter : Instr → Bool
  | .setMcmd _ => true
  | .setSeq _ => true
  | .setAcc _ _ _ => true
  | .setGyro _ _ _ => true
  | .setMag _ _ _ => true
  | .setTemp _ => true
  | .setOri _ _ _ => true
  | .setBtn _ => true
  | .setLstick _ _ => true
  | .setRstick _ _ => true
  | .setTrig _ _ => true
  | .setMcnt _ _ => true
  | .setMotion _ _ _ _ => true
  | .setUser _ _ => true
  | .errSet _ => false
  | .errClr => false
  | .csumOut => false
  | .csumIn => false
  | .valOut => false
  | .valIn => false
  | .finalize => false
  | .seqNext _ _ => false
  | .send => false
  | .rdOut _ => false
  | .rdIn _ => false
  | .rdStat => false
  | .rxDatagram _ => false

/-- The index of an operation is out of the range its rule gives (R73): the response it then has. -/
def indexError : Instr → Option (Status × Word)
  | .setMotion idx _ _ _ => if idx.toNat < 30 then none else some (.indexOutOfRange, idx.setWidth 16)
  | .setUser idx _ => if idx.toNat < 8 then none else some (.userDataIndexInvalid, idx.setWidth 16)
  | .rdOut idx => if idx.toNat < 90 then none else some (.badOffset, idx.setWidth 16)
  | .rdIn idx => if idx.toNat < 90 then none else some (.badOffset, idx.setWidth 16)
  | _ => none

/-- The operation moves the link to ACTIVE: every SEND and every accepted datagram (R24). -/
def movesLink : Instr → Bool
  | .send => true
  | .rxDatagram bs => match decodeDatagram bs with
    | .ok _ => true
    | .error _ => false
  | _ => false

/-- The 16-bit value that bytes `2i` and `2i + 1` of a datagram carry, low byte first (R41). -/
def wireWord (bs : Datagram) (i : Offset) : Nat := (bs.getD (2 * i.val) 0).toNat + 256 * (bs.getD (2 * i.val + 1) 0).toNat

/-- The last response on the command port after an operation. -/
def lastResponse : StepResult → Option Response
  | .next t => t.rsps.getLast?
  | .fault _ => none
  | .refused _ => none

end Sys2Proof.Machine
end

