-- ==== Sys2Proof/Certificates/Slice0/Obligations.lean ====
section
/-! DEFINITION. The statements about frame_codec for the provers. Each says which rules of spec/ it comes from;
none rests on a value that is the model's own choice unless its docstring says so. -/

open Sys2Proof Sys2Proof.Machine

/-! ### Encoding and decoding -/

/-- R75, R76, R80, R81: decoding what is presented for an operation gives that operation, for every operation and
every operand, on the port that may carry it (R206). -/
def Obligations.DecodeOfEncodeIsIdentity : Prop :=
  ∀ i : Instr, decode (encode i) = .ok i ∧ WellFormed (portAgent (encode i)) i = true

/-- R83, R76: a command word decodes as it does with every bit outside `OP` and the fields R76 lists for its opcode
cleared, so no decoder may read an unused field; from every state it does what it does with bits 15:8 of its 8-bit
operands cleared as well (R72); what it decodes to is one of the 26 commands; and what is presented for a command has
0 in the unused fields. -/
def Obligations.UnusedFieldsIgnored : Prop :=
  ∀ w : CommandWord,
    decodeCommand w = decodeCommand (w &&& usedBits (opField w)) ∧
    (∀ s, stepHost s w = stepHost s (w &&& effectiveBits (opField w))) ∧
    (∀ i, decodeCommand w = .ok i → WellFormed .host i = true) ∧
    (∀ i, encode i = .command w → w &&& usedBits (opField w) = w)

/-- R82: exactly OP 0x00 and 0x1B to 0xFF, 230 values, are illegal; an illegal command changes no frame and no
LINK, sets FAULT, emits nothing and answers ILLEGAL_COMMAND with its opcode. The all-zero word is one. -/
def Obligations.IllegalCommandEffect : Prop :=
  (∀ w s, ((opField w).toNat = 0 ∨ 0x1B ≤ (opField w).toNat) →
    stepHost s w = .next { s with fault := true, rsps := s.rsps ++ [⟨.illegalCommand, (opField w).setWidth 16⟩] }) ∧
  (∀ w, 0x01 ≤ (opField w).toNat → (opField w).toNat ≤ 0x1A → ∃ i, decodeCommand w = .ok i) ∧
  ((List.range 256).filter fun n => n = 0 ∨ 0x1B ≤ n).length = 230 ∧
  opField 0 = 0

/-- Command words written out from 30_encoding.md decode to the commands they stand for. -/
def Obligations.SampleWordsDecode : Prop :=
  decodeCommand 0x0300_0001_FFFE_8000 = .ok (.setAcc 1 0xFFFE 0x8000) ∧
  decodeCommand 0x0D1D_00FF_0100_7FFF = .ok (.setMotion 29 255 256 32767) ∧
  decodeCommand 0x0E07_FFFF_0000_0000 = .ok (.setUser 7 0xFFFF) ∧
  decodeCommand 0x1600_EA5E_EA5F_0000 = .ok (.seqNext 59998 59999) ∧
  decodeCommand 0x1959_0000_0000_0000 = .ok (.rdIn 89) ∧
  decodeCommand 0x1700_0000_0000_0000 = .ok .send

/-- R86: an operand from -32768 to 65535 assembles to `w16(v)`, an index from 0 to 255 to itself, and nothing else
assembles; the rule's example line assembles to its word. -/
def Obligations.AssemblerOperandRanges : Prop :=
  (∀ v : Int, -32768 ≤ v → v ≤ 65535 → asmOperand v = some (BitVec.ofInt 16 v)) ∧
  (∀ v : Int, v < -32768 ∨ 65535 < v → asmOperand v = none) ∧
  (∀ n : Nat, n ≤ 255 → asmIndex n = some (BitVec.ofNat 8 n)) ∧
  (∀ v : Int, v < 0 ∨ 255 < v → asmIndex v = none) ∧
  assembleLine 0 0 "SET_MOTION 0, 3, 7, -100".toList = some [.command 0x0D00_0003_0007_FF9C]

/-! ### Steps and runs -/

/-- R44, R47: when one port alone has something ready, the step takes its oldest input and is the transaction of that
input, legal or not, on the state without it: the operation it decodes to, or ILLEGAL_COMMAND (R82); with nothing ready
a step changes nothing (the waiting step is log entry 3, the model's choice). -/
def Obligations.StepRunsDecodedOperation : Prop :=
  (∀ s w ws, s.cmds = w :: ws → s.dgrams = [] →
    step s = stepHost { s with cmds := ws } w ∧
    (∀ i, decodeCommand w = .ok i → step s = exec i { s with cmds := ws }) ∧
    (∀ op, decodeCommand w = .error (.illegalCommand op) →
      step s = .next { s with cmds := ws, fault := true, rsps := s.rsps ++ [⟨.illegalCommand, op.setWidth 16⟩] })) ∧
  (∀ s d ds, s.cmds = [] → s.dgrams = d :: ds →
    step s = stepRx { s with dgrams := ds } d ∧ step s = exec (.rxDatagram d) { s with dgrams := ds }) ∧
  (∀ s, s.cmds = [] → s.dgrams = [] → step s = .next s)

/-- R48: when both agents are ready the step is the whole operation of one of them, on the state without its
input; which one is left open (`Config.arbOrder`, log entry 2; the count of draws is the model's own). -/
def Obligations.ContestedStepIsOneWholeOperation : Prop :=
  ∀ s w ws d ds, s.cmds = w :: ws → s.dgrams = d :: ds →
    step s = stepHost { s with cmds := ws, draws := s.draws + 1 } w ∨
    step s = stepRx { s with dgrams := ds, draws := s.draws + 1 } d

/-- R11, R47, R239: every step that has something to do takes the oldest input of one port and gives exactly one
response on that port, at the end of its record; the other port's inputs and record stay. (The waiting step, when
nothing is ready, is log entry 3, the model's choice.) -/
def Obligations.StepConsumesOneAndAnswersOnce : Prop :=
  ∀ s t, step s = .next t →
    (s.cmds = [] ∧ s.dgrams = [] ∧ t = s) ∨
    (∃ w r, s.cmds = w :: t.cmds ∧ t.dgrams = s.dgrams ∧ t.rsps = s.rsps ++ [r] ∧ t.rxrsps = s.rxrsps) ∨
    (∃ d r, s.dgrams = d :: t.dgrams ∧ t.cmds = s.cmds ∧ t.rxrsps = s.rxrsps ++ [r] ∧ t.rsps = s.rsps)

/-- R13.5: no run ever stops: from every state every sequence of offers and steps completes. -/
def Obligations.EveryRunCompletes : Prop := ∀ es s, ∃ t, runEvents es s = .next t

/-- R239, R240: every accepted operation completes with its response: after as many steps as there are inputs
waiting, nothing waits, and each port's record has grown, at its end, by one response for each input that waited
there, and TXH by at most one datagram for each command; nothing recorded before is altered. (The lists of waiting inputs are the model's: log entry 1.) -/
def Obligations.WaitingInputsAreAllAnswered : Prop :=
  ∀ s, ∃ t, runEvents (List.replicate (s.cmds.length + s.dgrams.length) .stepBlock) s = .next t ∧
    t.cmds = [] ∧ t.dgrams = [] ∧
    (∃ x, t.rsps = s.rsps ++ x ∧ x.length = s.cmds.length) ∧
    (∃ y, t.rxrsps = s.rxrsps ++ y ∧ y.length = s.dgrams.length) ∧
    (∃ z, t.txh = s.txh ++ z ∧ z.length ≤ s.cmds.length)

/-! ### The payload packer -/

/-- R100, R101, R105, R107: the single-word setters store the operand unchanged in words 0, 1, 11, 15. -/
def Obligations.SingleWordSettersStoreOperand : Prop :=
  (DecodesTo 0x01 (fun w => .setMcmd (aField w)) ∧ DecodesTo 0x02 (fun w => .setSeq (aField w)) ∧
   DecodesTo 0x06 (fun w => .setTemp (aField w)) ∧ DecodesTo 0x08 (fun w => .setBtn (aField w))) ∧
  ∀ a : Word,
    WritesWords (.setMcmd a) (fun j => if j = 0 then some a else none) ∧
    WritesWords (.setSeq a) (fun j => if j = 1 then some a else none) ∧
    WritesWords (.setTemp a) (fun j => if j = 11 then some a else none) ∧
    WritesWords (.setBtn a) (fun j => if j = 15 then some a else none)

/-- R102, R103, R104, R106 with R61: the three-word setters store x, y, z at 2..4, 5..7, 8..10 and roll, pitch, yaw
at 12..14, all three together. -/
def Obligations.TripleSettersStoreThreeWords : Prop :=
  (DecodesTo 0x03 (fun w => .setAcc (aField w) (bField w) (cField w)) ∧
   DecodesTo 0x04 (fun w => .setGyro (aField w) (bField w) (cField w)) ∧
   DecodesTo 0x05 (fun w => .setMag (aField w) (bField w) (cField w)) ∧
   DecodesTo 0x07 (fun w => .setOri (aField w) (bField w) (cField w))) ∧
  ∀ a b c : Word,
    WritesWords (.setAcc a b c)
      (fun j => if j = 2 then some a else if j = 3 then some b else if j = 4 then some c else none) ∧
    WritesWords (.setGyro a b c)
      (fun j => if j = 5 then some a else if j = 6 then some b else if j = 7 then some c else none) ∧
    WritesWords (.setMag a b c)
      (fun j => if j = 8 then some a else if j = 9 then some b else if j = 10 then some c else none) ∧
    WritesWords (.setOri a b c)
      (fun j => if j = 12 then some a else if j = 13 then some b else if j = 14 then some c else none)

/-- R109 to R113 with R72: the pair setters store the first value's low byte in the high byte and the second's in
the low byte of words 16, 17, 18, 19; the upper bytes of the operands are discarded. -/
def Obligations.PairSettersPackLowBytes : Prop :=
  (DecodesTo 0x09 (fun w => .setLstick (aField w) (bField w)) ∧
   DecodesTo 0x0A (fun w => .setRstick (aField w) (bField w)) ∧
   DecodesTo 0x0B (fun w => .setTrig (aField w) (bField w)) ∧
   DecodesTo 0x0C (fun w => .setMcnt (aField w) (bField w))) ∧
  ∀ a b p : Word, p.toNat = a.toNat % 256 * 256 + b.toNat % 256 →
    WritesWords (.setLstick a b) (fun j => if j = 16 then some p else none) ∧
    WritesWords (.setRstick a b) (fun j => if j = 17 then some p else none) ∧
    WritesWords (.setTrig a b) (fun j => if j = 18 then some p else none) ∧
    WritesWords (.setMcnt a b) (fun j => if j = 19 then some p else none)

/-- R114: SET_MOTION writes the packed sub-commands at 20+2·IDX and the value at 21+2·IDX; an index of 30 or more
is INDEX_OUT_OF_RANGE, sets FAULT and writes no word (that no word is written is the spec's own decision D9). -/
def Obligations.SetMotionWritesEntryOrRejects : Prop :=
  DecodesTo 0x0D (fun w => .setMotion (idxField w) (aField w) (bField w) (cField w)) ∧
  ∀ (idx : Byte) (a b c : Word),
    if idx.toNat < 30 then
      WritesWords (.setMotion idx a b c) (fun j =>
        if j = 20 + 2 * idx.toNat then some (BitVec.ofNat 16 (a.toNat % 256 * 256 + b.toNat % 256))
        else if j = 21 + 2 * idx.toNat then some c else none)
    else Rejects (.setMotion idx a b c) .indexOutOfRange true (BitVec.ofNat 16 idx.toNat)

/-- R115: SET_USER writes the value at 80+IDX; an index of 8 or more is USER_DATA_INDEX_INVALID, leaves FAULT and
writes no word. -/
def Obligations.SetUserWritesSlotOrRejects : Prop :=
  DecodesTo 0x0E (fun w => .setUser (idxField w) (aField w)) ∧
  ∀ (idx : Byte) (a : Word),
    if idx.toNat < 8 then WritesWords (.setUser idx a) (fun j => if j = 80 + idx.toNat then some a else none)
    else Rejects (.setUser idx a) .userDataIndexInvalid false (BitVec.ofNat 16 idx.toNat)

/-- R116, R118: whatever a setter is, it never touches the error word, the checksum word, IN, LINK or TXH; the
words it changes and their values depend on its operands alone; it answers `OK, 0` unless its index is out of
range; and FAULT changes only by a bad motion index. -/
def Obligations.SettersReadNothingAndTouchOnlyFields : Prop :=
  ∀ i, isSetter i = true → ∀ s s' : State, ∃ t t', exec i s = .next t ∧ exec i s' = .next t' ∧
    t.inb = s.inb ∧ t.link = s.link ∧ t.txh = s.txh ∧ t.rxrsps = s.rxrsps ∧
    Frame.word t.out 88 = Frame.word s.out 88 ∧ Frame.word t.out 89 = Frame.word s.out 89 ∧
    (∀ j, Frame.word t.out j = Frame.word t'.out j ∨
      (Frame.word t.out j = Frame.word s.out j ∧ Frame.word t'.out j = Frame.word s'.out j)) ∧
    t.rsps = s.rsps ++ [match indexError i with
      | none => ⟨.ok, 0⟩
      | some e => ⟨e.1, e.2⟩] ∧
    (t.fault = s.fault ∨ ∃ idx a b c, i = .setMotion idx a b c ∧ 30 ≤ idx.toNat ∧ t.fault = true)

/-- R113: the packed word holds `A[7:0]` above `B[7:0]`, each masked on its own, with no interaction between the
lanes; as integers it is `b8(first) * 256 + b8(second)`. -/
def Obligations.PackingKeepsLanesApart : Prop :=
  (∀ a b : Word, hi8 (pack88 a b) = lo8 a ∧ lo8 (pack88 a b) = lo8 b ∧
    (pack88 a b).toNat = a.toNat % 256 * 256 + b.toNat % 256) ∧
  (∀ x y : Int, pack88 (w16 x) (w16 y) = pack88Int x y ∧
    ((pack88Int x y).toNat : Int) = x % 256 * 256 + y % 256)

/-- R117, which the spec marks as derived: packing an in-range value and reading it back is the identity. -/
def Obligations.InRangeValuesReadBack : Prop :=
  (∀ v : Int, -32768 ≤ v → v ≤ 32767 → sext16 (w16 v) = v) ∧
  (∀ x y : Int, -128 ≤ x → x ≤ 127 → -128 ≤ y → y ≤ 127 →
    sext8 (hi8 (pack88Int x y)) = x ∧ sext8 (lo8 (pack88Int x y)) = y)

/-- R62, R74: `btn_pack` puts each button's boolean at its bit, and is equally the OR of the pressed buttons'
values. -/
def Obligations.ButtonPackIsBitPerButton : Prop :=
  ∀ k : ButtonSnapshot,
    (∀ r ∈ snapshotRows k, buttonPressed (btnPack k) r.1 = r.2) ∧
    btnPack k = buttonWord (((snapshotRows k).filter (·.2)).map (·.1))

/-- R60: every word offset of a frame belongs to exactly one field of the layout table. -/
def Obligations.LayoutAssignsEachOffsetOnce : Prop := ∀ i : Offset, (fieldsAt i).length = 1

/-! ### The checksum engine -/

/-- R130: the checksum is the negation modulo 65536 of the sum of words 0 to 88. -/
def Obligations.ChecksumIsNegatedSum : Prop :=
  ∀ F : Frame, (computeChecksum F).toNat =
    (65536 - (∑ i : Fin 89, (Frame.word F i.castSucc).toNat) % 65536) % 65536

/-- R131: validity is the sum of all 90 words being 0 modulo 65536, equally the checksum word being the computed
checksum; the all-zero frame is valid. -/
def Obligations.ValidIffSumZeroIffChecksumWord : Prop :=
  (∀ F : Frame, (validate F = true ↔ (∑ i : Offset, (Frame.word F i).toNat) % 65536 = 0) ∧
    (validate F = true ↔ Frame.word F 89 = computeChecksum F)) ∧
  validate zeroFrame = true

/-- A valid frame with any one word changed to another value is not valid (from R131; what R137 says of a frame
after FINALIZE). -/
def Obligations.OneChangedWordIsDetected : Prop :=
  ∀ (F : Frame) (i : Offset) (w : Word), validate F = true → w ≠ Frame.word F i →
    validate (Frame.put F i w) = false

/-- R132: `encode_bytes` is 180 bytes, byte 2i the low and byte 2i+1 the high byte of word i. -/
def Obligations.EncodeBytesIsLittleEndian : Prop :=
  ∀ F : Frame, (encodeBytes F).length = 180 ∧
    ∀ i : Offset, (encodeBytes F)[2 * i.val]? = some ((Frame.word F i).extractLsb' 0 8) ∧
      (encodeBytes F)[2 * i.val + 1]? = some ((Frame.word F i).extractLsb' 8 8)

/-- R133: the length is tested first, then the sum of the little-endian words; those same words are returned. -/
def Obligations.DecodeDatagramResult : Prop :=
  ∀ bs : Datagram,
    (bs.length ≠ 180 → decodeDatagram bs = .error .lengthMismatch) ∧
    (bs.length = 180 → (∑ i : Offset, wireWord bs i) % 65536 ≠ 0 → decodeDatagram bs = .error .checksumError) ∧
    (bs.length = 180 → (∑ i : Offset, wireWord bs i) % 65536 = 0 →
      ∃ F, decodeDatagram bs = .ok F ∧ ∀ i, (Frame.word F i).toNat = wireWord bs i)

/-- R134 (a) to (d): the codec laws the source states as testable properties. -/
def Obligations.CodecLaws : Prop :=
  (∀ F : Frame, validate (Frame.put F 89 (computeChecksum F)) = true) ∧
  (∀ F : Frame, validate F = true → decodeDatagram (encodeBytes F) = .ok F) ∧
  (∀ F : Frame, wordsOfBytes (encodeBytes F) = F) ∧
  (∀ bs : Datagram, bs.length = 180 → encodeBytes (wordsOfBytes bs) = bs) ∧
  (∀ bs : Datagram, bs.length = 179 → decodeDatagram bs = .error .lengthMismatch) ∧
  (∀ bs : Datagram, bs.length = 180 → (∑ i : Offset, wireWord bs i) % 65536 ≠ 0 →
    decodeDatagram bs = .error .checksumError) ∧
  (∀ (F : Frame) (w : Word), computeChecksum (Frame.put F 89 w) = computeChecksum F) ∧
  (∀ F : Frame, finalizeFrame (finalizeFrame F) = finalizeFrame F)

/-- R135, R138: CSUM_OUT and VAL_OUT answer the checksum and the validity of OUT and write nothing. -/
def Obligations.OutboundChecksumCommands : Prop :=
  DecodesTo 0x11 (fun _ => .csumOut) ∧ DecodesTo 0x13 (fun _ => .valOut) ∧
  AnswersOnly .csumOut (fun s => computeChecksum s.out) ∧
  AnswersOnly .valOut (fun s => if validate s.out then 1 else 0)

/-- R136, R139: CSUM_IN and VAL_IN answer the checksum and the validity of IN and write nothing; in a state with
the invariant R23 they answer `IN[89]` and 1. -/
def Obligations.InboundChecksumCommands : Prop :=
  DecodesTo 0x12 (fun _ => .csumIn) ∧ DecodesTo 0x14 (fun _ => .valIn) ∧
  AnswersOnly .csumIn (fun s => computeChecksum s.inb) ∧
  AnswersOnly .valIn (fun s => if validate s.inb then 1 else 0) ∧
  ∀ s, InboundValid s →
    lastResponse (exec .csumIn s) = some ⟨.ok, Frame.word s.inb 89⟩ ∧
    lastResponse (exec .valIn s) = some ⟨.ok, 1⟩

/-- R137: FINALIZE writes the checksum into word 89 and answers it; OUT is then valid, a write of a different value
to any word makes it invalid, a second FINALIZE writes the same value, and no other field changes. -/
def Obligations.FinalizeMakesOutboundValid : Prop :=
  DecodesTo 0x15 (fun _ => .finalize) ∧
  ∀ s, ∃ t, exec .finalize s = .next t ∧
    t = { s with out := t.out, rsps := s.rsps ++ [⟨.ok, computeChecksum s.out⟩] } ∧
    (∀ j, Frame.word t.out j = if j = 89 then computeChecksum s.out else Frame.word s.out j) ∧
    validate t.out = true ∧
    (∀ j w, w ≠ Frame.word t.out j → validate (Frame.put t.out j w) = false) ∧
    ∃ u, exec .finalize t = .next u ∧ u.out = t.out ∧ lastResponse (.next u) = lastResponse (.next t)

/-! ### The sequence unit -/

/-- R150, R156: the comparison is the plain unsigned one, a strict total order, and not modular. -/
def Obligations.SequenceOrderIsPlainUnsigned : Prop :=
  (∀ a b : Word, seqGt a b = true ↔ b.toNat < a.toNat) ∧
  (∀ a : Word, seqGt a a = false) ∧
  (∀ a b c : Word, seqGt a b = true → seqGt b c = true → seqGt a c = true) ∧
  (∀ a b : Word, a ≠ b → seqGt a b = true ∨ seqGt b a = true) ∧
  seqGt 0 59999 = false

/-- R151: the greater of the two, their common value when they are equal. -/
def Obligations.SequenceMaximum : Prop :=
  ∀ a b : Word, (seqMax a b).toNat = max a.toNat b.toNat ∧ (a = b → seqMax a b = a)

/-- R152: the increment wraps to 0 at 59999 and above and never exceeds 59999. -/
def Obligations.SequenceIncrementWraps : Prop :=
  ∀ b : Word, (59999 ≤ b.toNat → seqInc b = 0) ∧ (b.toNat ≤ 59998 → (seqInc b).toNat = b.toNat + 1) ∧
    (seqInc b).toNat ≤ 59999 ∧ (b.toNat ≤ 59999 → (seqInc b).toNat = (b.toNat + 1) % 60000)

/-- R153, R155: SEQ_NEXT answers the increment of the greater operand, symmetric in the two, reading and writing no
state; with a remote of 0 it is the increment of the local number. -/
def Obligations.SeqNextAnswersNextNumber : Prop :=
  DecodesTo 0x16 (fun w => .seqNext (aField w) (bField w)) ∧
  (∀ a b : Word, AnswersOnly (.seqNext a b) (fun _ => seqInc (if b.toNat < a.toNat then a else b))) ∧
  (∀ a b : Word, nextSequence a b = nextSequence b a) ∧
  (∀ a : Word, nextSequence a 0 = seqInc a)

/-! ### The buffer controller and merge arbiter -/

/-- R165, R166: ERR_SET ORs its operand into word 88 and two of them accumulate; ERR_CLR makes the word 0; neither
changes anything else. -/
def Obligations.ErrorWordAccumulatesAndClears : Prop :=
  (DecodesTo 0x0F (fun w => .errSet (aField w)) ∧ DecodesTo 0x10 (fun _ => .errClr)) ∧
  (∀ (c : Word) s, ∃ t, exec (.errSet c) s = .next t ∧
    t = { s with out := t.out, rsps := s.rsps ++ [⟨.ok, 0⟩] } ∧
    ∀ j, Frame.word t.out j = if j = 88 then Frame.word s.out 88 ||| c else Frame.word s.out j) ∧
  WritesWords .errClr (fun j => if j = 88 then some 0 else none) ∧
  ∀ (c1 c2 : Word) s, Frame.word s.out 88 = 0 → ∃ t u, execAll [.errSet c1, .errSet c2] s = .next t ∧
    Frame.word t.out 88 = c1 ||| c2 ∧ exec .errClr t = .next u ∧ Frame.word u.out 88 = 0

/-- R170: SEND numbers OUT with the next sequence number, writes the checksum of the result, emits its 180 bytes,
moves the link to ACTIVE and answers the number; words other than 1 and 89, IN and FAULT stay; the datagram is one
that a receiver decodes to exactly OUT. -/
def Obligations.SendNumbersFinalizesAndEmits : Prop :=
  DecodesTo 0x17 (fun _ => .send) ∧
  ∀ s, ∃ t, exec .send s = .next t ∧
    t = { s with out := t.out, link := true, txh := s.txh ++ [encodeBytes t.out],
                 rsps := s.rsps ++ [⟨.ok, Frame.word t.out 1⟩] } ∧
    Frame.word t.out 1 = nextSequence (Frame.word s.out 1) (Frame.word s.inb 1) ∧
    Frame.word t.out 89 = computeChecksum t.out ∧
    (∀ j, j ≠ 1 → j ≠ 89 → Frame.word t.out j = Frame.word s.out j) ∧
    decodeDatagram (encodeBytes t.out) = .ok t.out

/-- R175: a datagram of another length, or with a bad sum, changes nothing but the RX record; an accepted one
replaces IN, moves the link to ACTIVE, and replaces OUT exactly when its sequence number is greater than `OUT[1]`
before the step. -/
def Obligations.RxDatagramDropsOrReceives : Prop :=
  ∀ (bs : Datagram) (s : State),
    (bs.length ≠ 180 →
      exec (.rxDatagram bs) s = .next { s with rxrsps := s.rxrsps ++ [⟨.lengthMismatch, false⟩] }) ∧
    (bs.length = 180 → (∑ i : Offset, wireWord bs i) % 65536 ≠ 0 →
      exec (.rxDatagram bs) s = .next { s with rxrsps := s.rxrsps ++ [⟨.checksumError, false⟩] }) ∧
    (bs.length = 180 → (∑ i : Offset, wireWord bs i) % 65536 = 0 →
      ∃ F, (∀ i, (Frame.word F i).toNat = wireWord bs i) ∧
        ((Frame.word s.out 1).toNat < (Frame.word F 1).toNat → exec (.rxDatagram bs) s =
          .next { s with inb := F, link := true, out := F, rxrsps := s.rxrsps ++ [⟨.ok, true⟩] }) ∧
        ((Frame.word F 1).toNat ≤ (Frame.word s.out 1).toNat → exec (.rxDatagram bs) s =
          .next { s with inb := F, link := true, rxrsps := s.rxrsps ++ [⟨.ok, false⟩] }))

/-- R170, R176 (b), (c): after an adoption OUT is IN, and the next SEND carries a number derived from the inbound
one. -/
def Obligations.SendAfterAdoptionFollowsInbound : Prop :=
  ∀ (bs : Datagram) (F : Frame) (s t : State), decodeDatagram bs = .ok F →
    seqGt (Frame.word F 1) (Frame.word s.out 1) = true → exec (.rxDatagram bs) s = .next t →
    t.out = F ∧ t.inb = F ∧
    ∃ u, exec .send t = .next u ∧ u.rsps = s.rsps ++ [⟨.ok, seqInc (Frame.word F 1)⟩]

/-- R180, R181: RD_OUT and RD_IN answer the word at the offset and write nothing; an offset of 90 or more is
BAD_OFFSET and sets FAULT. -/
def Obligations.ReadCommandsAnswerWordOrReject : Prop :=
  (DecodesTo 0x18 (fun w => .rdOut (idxField w)) ∧ DecodesTo 0x19 (fun w => .rdIn (idxField w))) ∧
  ∀ idx : Byte,
    (∀ i : Offset, idx.toNat = i.val →
      AnswersOnly (.rdOut idx) (fun s => Frame.word s.out i) ∧ AnswersOnly (.rdIn idx) (fun s => Frame.word s.inb i)) ∧
    (90 ≤ idx.toNat →
      Rejects (.rdOut idx) .badOffset true (BitVec.ofNat 16 idx.toNat) ∧
      Rejects (.rdIn idx) .badOffset true (BitVec.ofNat 16 idx.toNat))

/-- R183, R26: RD_STAT answers LINK in bit 0, FAULT in bit 1 and 0 above, and clears nothing. -/
def Obligations.ReadStatusAnswersFlags : Prop :=
  DecodesTo 0x1A (fun _ => .rdStat) ∧
  AnswersOnly .rdStat (fun s => BitVec.ofNat 16 (s.link.toNat + 2 * s.fault.toNat))

/-- R170, R153, R152: `n` SENDs in a row answer the numbers after the greater of `OUT[1]` and `IN[1]`, each one more
modulo 60000, when the peer's number is 0 (then R171 holds with its wrap) or when the run does not reach the wrap; IN
and every word of OUT but 1 and 89 stay. (With a nonzero `IN[1]` the wrap behaves as R234 (b), (c) say: log
entry 9.) -/
def Obligations.SendsCountUpModulo60000 : Prop :=
  ∀ (n m : Nat) (s : State), m = max (Frame.word s.out 1).toNat (Frame.word s.inb 1).toNat →
    (Frame.word s.inb 1 = 0 ∧ m < 60000) ∨ m + n ≤ 59999 →
    ∃ t, execAll (List.replicate n .send) s = .next t ∧
      t.rsps = s.rsps ++ (List.range n).map (fun k => ⟨.ok, BitVec.ofNat 16 ((m + 1 + k) % 60000)⟩) ∧
      (Frame.word t.out 1).toNat = (if n = 0 then (Frame.word s.out 1).toNat else (m + n) % 60000) ∧
      t.txh.length = s.txh.length + n ∧ t.inb = s.inb ∧
      ∀ j, j ≠ 1 → j ≠ 89 → Frame.word t.out j = Frame.word s.out j

/-- R234 (c): while `IN[1]` is at least 59999 every SEND carries 0, whatever `OUT[1]` is. -/
def Obligations.SendsCarryZeroWhileInboundAtWrap : Prop :=
  ∀ (n : Nat) (s : State), 59999 ≤ (Frame.word s.inb 1).toNat →
    ∃ t, execAll (List.replicate n .send) s = .next t ∧ t.rsps = s.rsps ++ List.replicate n ⟨.ok, 0⟩

/-- R234 (b): after a SEND has wrapped while `IN[1]` holds a nonzero `r` below 59999, the next SENDs carry `r + 1`,
`r + 2`, … up to 59999. -/
def Obligations.SendsJumpBackAfterWrap : Prop :=
  ∀ (n : Nat) (s : State), (Frame.word s.out 1).toNat = 59999 → 1 ≤ (Frame.word s.inb 1).toNat →
    (Frame.word s.inb 1).toNat + n ≤ 59999 →
    ∃ t, execAll (List.replicate (n + 1) .send) s = .next t ∧
      t.rsps = s.rsps ++ ⟨.ok, 0⟩ :: (List.range n).map
        (fun k => ⟨.ok, BitVec.ofNat 16 ((Frame.word s.inb 1).toNat + 1 + k)⟩)

/-- R88: PEEK_NEXTSEQ with no datagram between its commands answers, last, the number that SEND would carry from the
same state. -/
def Obligations.PeekNextSeqForetellsSend : Prop :=
  ∀ s : State, ∃ t u n,
    execAll (expandPseudo (Frame.word s.out 1) (Frame.word s.inb 1) .peekNextSeq) s = .next t ∧
    t.rsps = s.rsps ++ [⟨.ok, Frame.word s.out 1⟩, ⟨.ok, Frame.word s.inb 1⟩, ⟨.ok, n⟩] ∧
    exec .send s = .next u ∧ u.rsps = s.rsps ++ [⟨.ok, n⟩]

/-! ### Errors, flags and the whole machine -/

/-- R190, R198: the numbers of the statuses and which of them are hard errors. -/
def Obligations.StatusNumbersAndClasses : Prop :=
  [Status.ok, .lengthMismatch, .checksumError, .indexOutOfRange, .userDataIndexInvalid, .illegalCommand,
    .badOffset].map statusCode = [0, 1, 2, 3, 4, 5, 6] ∧
  (∀ e, isHardError e = true ↔ statusCode e = 3 ∨ statusCode e = 5 ∨ statusCode e = 6) ∧
  (∀ r : Response, (responseBits r).toNat = (statusCode r.status).toNat * 65536 + r.data.toNat)

/-- R11, R14, R190: every command word, legal or not, completes with exactly one response, whose status is OK or one
of the HOST errors, and emits at most one datagram of 180 bytes; every byte list completes with exactly one RX
response, whose status is OK or one of the RX errors and which reports an adoption only with OK. -/
def Obligations.TransactionsAlwaysAnswerOnce : Prop :=
  (∀ s w, ∃ t r, stepHost s w = .next t ∧ t.rsps = s.rsps ++ [r] ∧ t.rxrsps = s.rxrsps ∧
    r.status ∈ [Status.ok, .indexOutOfRange, .userDataIndexInvalid, .illegalCommand, .badOffset] ∧
    (t.txh = s.txh ∨ ∃ d, t.txh = s.txh ++ [d] ∧ d.length = 180)) ∧
  (∀ s bs, ∃ t r, stepRx s bs = .next t ∧ t.rxrsps = s.rxrsps ++ [r] ∧ t.rsps = s.rsps ∧
    r.status ∈ [Status.ok, .lengthMismatch, .checksumError] ∧ (r.adopted = true → r.status = .ok) ∧
    t.txh = s.txh ∧ t.fault = s.fault)

/-- R203, R204: a command that ends with a non-OK status changes nothing but FAULT, set exactly when the status is
hard, and the response record; a rejected datagram changes nothing but the RX record. -/
def Obligations.ErrorsHaveNoOtherEffect : Prop :=
  (∀ s t w, stepHost s w = .next t → ∃ r, t.rsps = s.rsps ++ [r] ∧
    (r.status ≠ .ok → t = { s with fault := s.fault || isHardError r.status, rsps := s.rsps ++ [r] })) ∧
  (∀ s t bs, stepRx s bs = .next t → ∃ r, t.rxrsps = s.rxrsps ++ [r] ∧
    (r.status ≠ .ok → r.adopted = false ∧ t = { s with rxrsps := s.rxrsps ++ [r] }))

/-- R206, R21: no HOST command writes IN. -/
def Obligations.HostCommandsNeverWriteInbound : Prop :=
  ∀ i s t, WellFormed .host i = true → exec i s = .next t → t.inb = s.inb

/-- R25, R198, R205: an operation leaves FAULT at 1 if it was, sets it exactly when its response has a hard status,
and never clears it. -/
def Obligations.FaultIsStickyAndExact : Prop :=
  ∀ i s t, exec i s = .next t →
    t.fault = (s.fault || (t.rsps.drop s.rsps.length).any fun r => isHardError r.status)

/-- R24, R185: LINK becomes ACTIVE by SEND and by an accepted datagram, by nothing else, and is never cleared. -/
def Obligations.LinkMovesOnlyBySendOrAcceptance : Prop :=
  ∀ i s t, exec i s = .next t → t.link = (s.link || movesLink i)

/-- R24, R25, R185: LINK and FAULT gate nothing: from states that differ only in them every operation but RD_STAT
does the same to everything else, and RD_STAT differs only in its answer. -/
def Obligations.FlagsGateNothing : Prop :=
  ∀ (i : Instr) (s : State) (l f : Bool), ∃ t t', exec i s = .next t ∧
    exec i { s with link := l, fault := f } = .next t' ∧
    (i ≠ .rdStat → { t' with link := t.link, fault := t.fault } = t) ∧
    { t' with link := t.link, fault := t.fault, rsps := t.rsps } = t

/-- R13.2, R31: no operation reads the recorded outputs or what waits on the ports: from a state with other records
and inputs it does the same to the frames and flags, appends the same to each record, and leaves the inputs (the
inputs and the count of draws are the model's own fields, log entries 1 and 2). -/
def Obligations.RecordsAndInputsAreNotRead : Prop :=
  ∀ (i : Instr) (s u : State), ∃ t t', exec i s = .next t ∧
    exec i { u with out := s.out, inb := s.inb, link := s.link, fault := s.fault } = .next t' ∧
    t'.out = t.out ∧ t'.inb = t.inb ∧ t'.link = t.link ∧ t'.fault = t.fault ∧
    (∃ x, t.txh = s.txh ++ x ∧ t'.txh = u.txh ++ x) ∧
    (∃ x, t.rsps = s.rsps ++ x ∧ t'.rsps = u.rsps ++ x) ∧
    (∃ x, t.rxrsps = s.rxrsps ++ x ∧ t'.rxrsps = u.rxrsps ++ x) ∧
    t'.cmds = u.cmds ∧ t'.dgrams = u.dgrams ∧ t'.draws = u.draws

/-- R23, which the spec marks as derived: every step keeps IN valid, and then IN's checksum word is its checksum. -/
def Obligations.InboundStaysValid : Prop :=
  ∀ s t, InboundValid s → step s = .next t →
    InboundValid t ∧ computeChecksum t.inb = Frame.word t.inb 89

/-- R31, R170, R231: every step keeps the datagrams sent at 180 bytes each and acceptable to a receiver; nothing
sent is ever altered or dropped from the history. -/
def Obligations.SentDatagramsStayAcceptable : Prop :=
  ∀ s t, SentValid s → step s = .next t → SentValid t ∧ ∃ x, t.txh = s.txh ++ x

/-- R24, R25: every step keeps FAULT the exact record of hard errors, and LINK the exact record of a first send or
acceptance. (The records of responses are held by the model: log entry 4.) -/
def Obligations.FlagsStayExactRecords : Prop :=
  ∀ s t, step s = .next t → (FaultExact s → FaultExact t) ∧ (LinkExact s → LinkExact t)

/-- R220 with R20, R21, R24, R25, R31: what reset leaves, and that it meets the invariants. The response records and
the model's own fields, which the spec names no reset value for, are read only through `Good` (they begin empty: log
entries 1, 4, the model's choice). -/
def Obligations.ResetStateMeetsInvariants : Prop :=
  (∀ j, Frame.word State.reset.out j = 0 ∧ Frame.word State.reset.inb j = 0) ∧
  State.reset.link = false ∧ State.reset.fault = false ∧ State.reset.txh = [] ∧ Good State.reset

/-- R222, which the spec marks as derived: what the reset state gives. -/
def Obligations.FirstAnswersAfterReset : Prop :=
  lastResponse (exec .valOut State.reset) = some ⟨.ok, 1⟩ ∧
  lastResponse (exec .valIn State.reset) = some ⟨.ok, 1⟩ ∧
  lastResponse (exec .csumOut State.reset) = some ⟨.ok, 0⟩ ∧
  lastResponse (exec .rdStat State.reset) = some ⟨.ok, 0⟩ ∧
  Frame.word State.reset.out 0 = masterCommandCode .torqueAllOff ∧
  (∃ t, exec .send State.reset = .next t ∧ Frame.word t.out 1 = 1 ∧ Frame.word t.out 89 = 0xFFFF ∧
    lastResponse (.next t) = some ⟨.ok, 1⟩) ∧
  (∀ bs F, decodeDatagram bs = .ok F → 1 ≤ (Frame.word F 1).toNat →
    ∃ t, exec (.rxDatagram bs) State.reset = .next t ∧ t.out = F ∧ t.rxrsps.getLast? = some ⟨.ok, true⟩)
end

