-- ==== Sys2Proof/Laws/State.lean ====
section
/-! SUPPORT. One lemma per field of the state and shared update of Machine/Ops.lean and Machine/Flags.lean, each
true by rfl: what the update leaves in that field. -/

namespace Sys2Proof.Machine

@[simp] theorem State.writeOut_out (s : State) (i : Offset) (w : Word) :
    (s.writeOut i w).out = Frame.put s.out i w := rfl
@[simp] theorem State.writeOut_inb (s : State) (i : Offset) (w : Word) : (s.writeOut i w).inb = s.inb := rfl
@[simp] theorem State.writeOut_link (s : State) (i : Offset) (w : Word) : (s.writeOut i w).link = s.link := rfl
@[simp] theorem State.writeOut_fault (s : State) (i : Offset) (w : Word) : (s.writeOut i w).fault = s.fault :=
    rfl
@[simp] theorem State.writeOut_txh (s : State) (i : Offset) (w : Word) : (s.writeOut i w).txh = s.txh := rfl
@[simp] theorem State.writeOut_rsps (s : State) (i : Offset) (w : Word) : (s.writeOut i w).rsps = s.rsps := rfl
@[simp] theorem State.writeOut_rxrsps (s : State) (i : Offset) (w : Word) : (s.writeOut i w).rxrsps = s.rxrsps :=
    rfl
@[simp] theorem State.writeOut_cmds (s : State) (i : Offset) (w : Word) : (s.writeOut i w).cmds = s.cmds := rfl
@[simp] theorem State.writeOut_dgrams (s : State) (i : Offset) (w : Word) : (s.writeOut i w).dgrams = s.dgrams :=
    rfl
@[simp] theorem State.writeOut_draws (s : State) (i : Offset) (w : Word) : (s.writeOut i w).draws = s.draws :=
    rfl

@[simp] theorem State.writeOut3_out (s : State) (i : Fin 88) (x y z : Word) :
    (s.writeOut3 i x y z).out = Frame.put3 s.out i x y z := rfl
@[simp] theorem State.writeOut3_inb (s : State) (i : Fin 88) (x y z : Word) : (s.writeOut3 i x y z).inb = s.inb :=
    rfl
@[simp] theorem State.writeOut3_link (s : State) (i : Fin 88) (x y z : Word) :
    (s.writeOut3 i x y z).link = s.link := rfl
@[simp] theorem State.writeOut3_fault (s : State) (i : Fin 88) (x y z : Word) :
    (s.writeOut3 i x y z).fault = s.fault := rfl
@[simp] theorem State.writeOut3_txh (s : State) (i : Fin 88) (x y z : Word) : (s.writeOut3 i x y z).txh = s.txh :=
    rfl
@[simp] theorem State.writeOut3_rsps (s : State) (i : Fin 88) (x y z : Word) :
    (s.writeOut3 i x y z).rsps = s.rsps := rfl
@[simp] theorem State.writeOut3_rxrsps (s : State) (i : Fin 88) (x y z : Word) :
    (s.writeOut3 i x y z).rxrsps = s.rxrsps := rfl
@[simp] theorem State.writeOut3_cmds (s : State) (i : Fin 88) (x y z : Word) :
    (s.writeOut3 i x y z).cmds = s.cmds := rfl
@[simp] theorem State.writeOut3_dgrams (s : State) (i : Fin 88) (x y z : Word) :
    (s.writeOut3 i x y z).dgrams = s.dgrams := rfl
@[simp] theorem State.writeOut3_draws (s : State) (i : Fin 88) (x y z : Word) :
    (s.writeOut3 i x y z).draws = s.draws := rfl

@[simp] theorem State.respond_out (s : State) (st : Status) (d : Word) : (s.respond st d).out = s.out := rfl
@[simp] theorem State.respond_inb (s : State) (st : Status) (d : Word) : (s.respond st d).inb = s.inb := rfl
@[simp] theorem State.respond_link (s : State) (st : Status) (d : Word) : (s.respond st d).link = s.link := rfl
@[simp] theorem State.respond_fault (s : State) (st : Status) (d : Word) : (s.respond st d).fault = s.fault :=
    rfl
@[simp] theorem State.respond_txh (s : State) (st : Status) (d : Word) : (s.respond st d).txh = s.txh := rfl
@[simp] theorem State.respond_rsps (s : State) (st : Status) (d : Word) :
    (s.respond st d).rsps = s.rsps ++ [⟨st, d⟩] := rfl
@[simp] theorem State.respond_rxrsps (s : State) (st : Status) (d : Word) : (s.respond st d).rxrsps = s.rxrsps :=
    rfl
@[simp] theorem State.respond_cmds (s : State) (st : Status) (d : Word) : (s.respond st d).cmds = s.cmds := rfl
@[simp] theorem State.respond_dgrams (s : State) (st : Status) (d : Word) : (s.respond st d).dgrams = s.dgrams :=
    rfl
@[simp] theorem State.respond_draws (s : State) (st : Status) (d : Word) : (s.respond st d).draws = s.draws :=
    rfl

@[simp] theorem State.rxRespond_out (s : State) (st : Status) (b : Bool) : (s.rxRespond st b).out = s.out := rfl
@[simp] theorem State.rxRespond_inb (s : State) (st : Status) (b : Bool) : (s.rxRespond st b).inb = s.inb := rfl
@[simp] theorem State.rxRespond_link (s : State) (st : Status) (b : Bool) : (s.rxRespond st b).link = s.link :=
    rfl
@[simp] theorem State.rxRespond_fault (s : State) (st : Status) (b : Bool) : (s.rxRespond st b).fault = s.fault :=
    rfl
@[simp] theorem State.rxRespond_txh (s : State) (st : Status) (b : Bool) : (s.rxRespond st b).txh = s.txh := rfl
@[simp] theorem State.rxRespond_rsps (s : State) (st : Status) (b : Bool) : (s.rxRespond st b).rsps = s.rsps :=
    rfl
@[simp] theorem State.rxRespond_rxrsps (s : State) (st : Status) (b : Bool) :
    (s.rxRespond st b).rxrsps = s.rxrsps ++ [⟨st, b⟩] := rfl
@[simp] theorem State.rxRespond_cmds (s : State) (st : Status) (b : Bool) : (s.rxRespond st b).cmds = s.cmds :=
    rfl
@[simp] theorem State.rxRespond_dgrams (s : State) (st : Status) (b : Bool) :
    (s.rxRespond st b).dgrams = s.dgrams := rfl
@[simp] theorem State.rxRespond_draws (s : State) (st : Status) (b : Bool) : (s.rxRespond st b).draws = s.draws :=
    rfl

@[simp] theorem State.raise_host_out (s : State) (e : Status) (d : Word) : (s.raise .host e d).out = s.out :=
    rfl
@[simp] theorem State.raise_host_inb (s : State) (e : Status) (d : Word) : (s.raise .host e d).inb = s.inb :=
    rfl
@[simp] theorem State.raise_host_link (s : State) (e : Status) (d : Word) : (s.raise .host e d).link = s.link :=
    rfl
@[simp] theorem State.raise_host_fault (s : State) (e : Status) (d : Word) :
    (s.raise .host e d).fault = (s.fault || isHardError e) := rfl
@[simp] theorem State.raise_host_txh (s : State) (e : Status) (d : Word) : (s.raise .host e d).txh = s.txh :=
    rfl
@[simp] theorem State.raise_host_rsps (s : State) (e : Status) (d : Word) :
    (s.raise .host e d).rsps = s.rsps ++ [⟨e, d⟩] := rfl
@[simp] theorem State.raise_host_rxrsps (s : State) (e : Status) (d : Word) :
    (s.raise .host e d).rxrsps = s.rxrsps := rfl
@[simp] theorem State.raise_host_cmds (s : State) (e : Status) (d : Word) : (s.raise .host e d).cmds = s.cmds :=
    rfl
@[simp] theorem State.raise_host_dgrams (s : State) (e : Status) (d : Word) :
    (s.raise .host e d).dgrams = s.dgrams := rfl
@[simp] theorem State.raise_host_draws (s : State) (e : Status) (d : Word) :
    (s.raise .host e d).draws = s.draws := rfl

@[simp] theorem State.raise_rx_out (s : State) (e : Status) (d : Word) : (s.raise .rx e d).out = s.out := rfl
@[simp] theorem State.raise_rx_inb (s : State) (e : Status) (d : Word) : (s.raise .rx e d).inb = s.inb := rfl
@[simp] theorem State.raise_rx_link (s : State) (e : Status) (d : Word) : (s.raise .rx e d).link = s.link := rfl
@[simp] theorem State.raise_rx_fault (s : State) (e : Status) (d : Word) :
    (s.raise .rx e d).fault = (s.fault || isHardError e) := rfl
@[simp] theorem State.raise_rx_txh (s : State) (e : Status) (d : Word) : (s.raise .rx e d).txh = s.txh := rfl
@[simp] theorem State.raise_rx_rsps (s : State) (e : Status) (d : Word) : (s.raise .rx e d).rsps = s.rsps := rfl
@[simp] theorem State.raise_rx_rxrsps (s : State) (e : Status) (d : Word) :
    (s.raise .rx e d).rxrsps = s.rxrsps ++ [⟨e, false⟩] := rfl
@[simp] theorem State.raise_rx_cmds (s : State) (e : Status) (d : Word) : (s.raise .rx e d).cmds = s.cmds := rfl
@[simp] theorem State.raise_rx_dgrams (s : State) (e : Status) (d : Word) : (s.raise .rx e d).dgrams = s.dgrams :=
    rfl
@[simp] theorem State.raise_rx_draws (s : State) (e : Status) (d : Word) : (s.raise .rx e d).draws = s.draws :=
    rfl

@[simp] theorem State.illegalCommand_out (s : State) (op : Byte) : (s.illegalCommand op).out = s.out := rfl
@[simp] theorem State.illegalCommand_inb (s : State) (op : Byte) : (s.illegalCommand op).inb = s.inb := rfl
@[simp] theorem State.illegalCommand_link (s : State) (op : Byte) : (s.illegalCommand op).link = s.link := rfl
@[simp] theorem State.illegalCommand_fault (s : State) (op : Byte) :
    (s.illegalCommand op).fault = (s.fault || true) := rfl
@[simp] theorem State.illegalCommand_txh (s : State) (op : Byte) : (s.illegalCommand op).txh = s.txh := rfl
@[simp] theorem State.illegalCommand_rsps (s : State) (op : Byte) :
    (s.illegalCommand op).rsps = s.rsps ++ [⟨.illegalCommand, zext16 op⟩] := rfl
@[simp] theorem State.illegalCommand_rxrsps (s : State) (op : Byte) : (s.illegalCommand op).rxrsps = s.rxrsps :=
    rfl
@[simp] theorem State.illegalCommand_cmds (s : State) (op : Byte) : (s.illegalCommand op).cmds = s.cmds := rfl
@[simp] theorem State.illegalCommand_dgrams (s : State) (op : Byte) : (s.illegalCommand op).dgrams = s.dgrams :=
    rfl
@[simp] theorem State.illegalCommand_draws (s : State) (op : Byte) : (s.illegalCommand op).draws = s.draws :=
    rfl

@[simp] theorem State.emit_out (s : State) (bs : Datagram) : (s.emit bs).out = s.out := rfl
@[simp] theorem State.emit_inb (s : State) (bs : Datagram) : (s.emit bs).inb = s.inb := rfl
@[simp] theorem State.emit_link (s : State) (bs : Datagram) : (s.emit bs).link = s.link := rfl
@[simp] theorem State.emit_fault (s : State) (bs : Datagram) : (s.emit bs).fault = s.fault := rfl
@[simp] theorem State.emit_txh (s : State) (bs : Datagram) : (s.emit bs).txh = s.txh ++ [bs] := rfl
@[simp] theorem State.emit_rsps (s : State) (bs : Datagram) : (s.emit bs).rsps = s.rsps := rfl
@[simp] theorem State.emit_rxrsps (s : State) (bs : Datagram) : (s.emit bs).rxrsps = s.rxrsps := rfl
@[simp] theorem State.emit_cmds (s : State) (bs : Datagram) : (s.emit bs).cmds = s.cmds := rfl
@[simp] theorem State.emit_dgrams (s : State) (bs : Datagram) : (s.emit bs).dgrams = s.dgrams := rfl
@[simp] theorem State.emit_draws (s : State) (bs : Datagram) : (s.emit bs).draws = s.draws := rfl

@[simp] theorem State.activateLink_out (s : State) : (s.activateLink).out = s.out := rfl
@[simp] theorem State.activateLink_inb (s : State) : (s.activateLink).inb = s.inb := rfl
@[simp] theorem State.activateLink_link (s : State) : (s.activateLink).link = true := rfl
@[simp] theorem State.activateLink_fault (s : State) : (s.activateLink).fault = s.fault := rfl
@[simp] theorem State.activateLink_txh (s : State) : (s.activateLink).txh = s.txh := rfl
@[simp] theorem State.activateLink_rsps (s : State) : (s.activateLink).rsps = s.rsps := rfl
@[simp] theorem State.activateLink_rxrsps (s : State) : (s.activateLink).rxrsps = s.rxrsps := rfl
@[simp] theorem State.activateLink_cmds (s : State) : (s.activateLink).cmds = s.cmds := rfl
@[simp] theorem State.activateLink_dgrams (s : State) : (s.activateLink).dgrams = s.dgrams := rfl
@[simp] theorem State.activateLink_draws (s : State) : (s.activateLink).draws = s.draws := rfl

@[simp] theorem State.recordFault_out (s : State) (e : Status) : (s.recordFault e).out = s.out := rfl
@[simp] theorem State.recordFault_inb (s : State) (e : Status) : (s.recordFault e).inb = s.inb := rfl
@[simp] theorem State.recordFault_link (s : State) (e : Status) : (s.recordFault e).link = s.link := rfl
@[simp] theorem State.recordFault_fault (s : State) (e : Status) :
    (s.recordFault e).fault = (s.fault || isHardError e) := rfl
@[simp] theorem State.recordFault_txh (s : State) (e : Status) : (s.recordFault e).txh = s.txh := rfl
@[simp] theorem State.recordFault_rsps (s : State) (e : Status) : (s.recordFault e).rsps = s.rsps := rfl
@[simp] theorem State.recordFault_rxrsps (s : State) (e : Status) : (s.recordFault e).rxrsps = s.rxrsps := rfl
@[simp] theorem State.recordFault_cmds (s : State) (e : Status) : (s.recordFault e).cmds = s.cmds := rfl
@[simp] theorem State.recordFault_dgrams (s : State) (e : Status) : (s.recordFault e).dgrams = s.dgrams := rfl
@[simp] theorem State.recordFault_draws (s : State) (e : Status) : (s.recordFault e).draws = s.draws := rfl

@[simp] theorem State.receive_out (s : State) (F : Frame) :
    (s.receive F).out = if seqGt (Frame.word F offSeq) (Frame.word s.out offSeq) then F else s.out := rfl
@[simp] theorem State.receive_inb (s : State) (F : Frame) : (s.receive F).inb = F := rfl
@[simp] theorem State.receive_link (s : State) (F : Frame) : (s.receive F).link = true := rfl
@[simp] theorem State.receive_fault (s : State) (F : Frame) : (s.receive F).fault = s.fault := rfl
@[simp] theorem State.receive_txh (s : State) (F : Frame) : (s.receive F).txh = s.txh := rfl
@[simp] theorem State.receive_rsps (s : State) (F : Frame) : (s.receive F).rsps = s.rsps := rfl
@[simp] theorem State.receive_rxrsps (s : State) (F : Frame) :
    (s.receive F).rxrsps = s.rxrsps ++ [⟨.ok, seqGt (Frame.word F offSeq) (Frame.word s.out offSeq)⟩] := rfl
@[simp] theorem State.receive_cmds (s : State) (F : Frame) : (s.receive F).cmds = s.cmds := rfl
@[simp] theorem State.receive_dgrams (s : State) (F : Frame) : (s.receive F).dgrams = s.dgrams := rfl
@[simp] theorem State.receive_draws (s : State) (F : Frame) : (s.receive F).draws = s.draws := rfl

@[simp] theorem State.offerCommand_out (s : State) (w : CommandWord) : (s.offerCommand w).out = s.out := rfl
@[simp] theorem State.offerCommand_inb (s : State) (w : CommandWord) : (s.offerCommand w).inb = s.inb := rfl
@[simp] theorem State.offerCommand_link (s : State) (w : CommandWord) : (s.offerCommand w).link = s.link := rfl
@[simp] theorem State.offerCommand_fault (s : State) (w : CommandWord) : (s.offerCommand w).fault = s.fault :=
    rfl
@[simp] theorem State.offerCommand_txh (s : State) (w : CommandWord) : (s.offerCommand w).txh = s.txh := rfl
@[simp] theorem State.offerCommand_rsps (s : State) (w : CommandWord) : (s.offerCommand w).rsps = s.rsps := rfl
@[simp] theorem State.offerCommand_rxrsps (s : State) (w : CommandWord) : (s.offerCommand w).rxrsps = s.rxrsps :=
    rfl
@[simp] theorem State.offerCommand_cmds (s : State) (w : CommandWord) : (s.offerCommand w).cmds = s.cmds ++ [w] :=
    rfl
@[simp] theorem State.offerCommand_dgrams (s : State) (w : CommandWord) : (s.offerCommand w).dgrams = s.dgrams :=
    rfl
@[simp] theorem State.offerCommand_draws (s : State) (w : CommandWord) : (s.offerCommand w).draws = s.draws :=
    rfl

@[simp] theorem State.offerDatagram_out (s : State) (bs : Datagram) : (s.offerDatagram bs).out = s.out := rfl
@[simp] theorem State.offerDatagram_inb (s : State) (bs : Datagram) : (s.offerDatagram bs).inb = s.inb := rfl
@[simp] theorem State.offerDatagram_link (s : State) (bs : Datagram) : (s.offerDatagram bs).link = s.link := rfl
@[simp] theorem State.offerDatagram_fault (s : State) (bs : Datagram) : (s.offerDatagram bs).fault = s.fault :=
    rfl
@[simp] theorem State.offerDatagram_txh (s : State) (bs : Datagram) : (s.offerDatagram bs).txh = s.txh := rfl
@[simp] theorem State.offerDatagram_rsps (s : State) (bs : Datagram) : (s.offerDatagram bs).rsps = s.rsps := rfl
@[simp] theorem State.offerDatagram_rxrsps (s : State) (bs : Datagram) : (s.offerDatagram bs).rxrsps = s.rxrsps :=
    rfl
@[simp] theorem State.offerDatagram_cmds (s : State) (bs : Datagram) : (s.offerDatagram bs).cmds = s.cmds := rfl
@[simp] theorem State.offerDatagram_dgrams (s : State) (bs : Datagram) :
    (s.offerDatagram bs).dgrams = s.dgrams ++ [bs] := rfl
@[simp] theorem State.offerDatagram_draws (s : State) (bs : Datagram) : (s.offerDatagram bs).draws = s.draws :=
    rfl

end Sys2Proof.Machine
end

