-- ==== Sys2Proof/Laws/Ops.lean ====
section
/-! SUPPORT. What the shared operations do, said once: words of frames, index checks, the completion and error
operations, and the arbitration. -/

namespace Sys2Proof.Machine

/-- Reading a word after writing one. -/
theorem Frame.word_put (F : Frame) (i j : Offset) (w : Word) :
    Frame.word (Frame.put F i w) j = if i = j then w else Frame.word F j := by
  by_cases h : i = j
  · subst h; simp [Frame.word, Frame.put, Vector.get_eq_getElem]
  · simp [Frame.word, Frame.put, Vector.get_eq_getElem, h, Fin.val_inj]

@[simp] theorem Frame.word_put_same (F : Frame) (i : Offset) (w : Word) :
    Frame.word (Frame.put F i w) i = w := by simp [Frame.word_put]

theorem Frame.word_put_ne (F : Frame) {i j : Offset} (w : Word) (h : i ≠ j) :
    Frame.word (Frame.put F i w) j = Frame.word F j := by simp [Frame.word_put, h]

/-- Two frames with the same words are the same frame. -/
theorem Frame.ext_word {F G : Frame} (h : ∀ i, Frame.word F i = Frame.word G i) : F = G := by
  ext1 i hi
  simpa [Frame.word, Vector.get_eq_getElem] using h ⟨i, hi⟩

/-- Reading a word after writing three. -/
theorem Frame.word_put3 (F : Frame) (i : Fin 88) (x y z : Word) (j : Offset) :
    Frame.word (Frame.put3 F i x y z) j =
      if j.val = i.val then x else if j.val = i.val + 1 then y else if j.val = i.val + 2 then z
      else Frame.word F j := by
  simp only [Frame.put3, Frame.word_put, Fin.ext_iff]
  split_ifs <;> first | rfl | omega

/-- Every word of the reset frame is 0. -/
@[simp] theorem word_zeroFrame (i : Offset) : Frame.word zeroFrame i = 0 := by
  simp [Frame.word, zeroFrame, Vector.get_eq_getElem]

@[simp] theorem offMcmd_val : offMcmd.val = 0 := rfl
@[simp] theorem offSeq_val : offSeq.val = 1 := rfl
@[simp] theorem offTemp_val : offTemp.val = 11 := rfl
@[simp] theorem offBtn_val : offBtn.val = 15 := rfl
@[simp] theorem offLstick_val : offLstick.val = 16 := rfl
@[simp] theorem offRstick_val : offRstick.val = 17 := rfl
@[simp] theorem offTrig_val : offTrig.val = 18 := rfl
@[simp] theorem offMcnt_val : offMcnt.val = 19 := rfl
@[simp] theorem offErr_val : offErr.val = 88 := rfl
@[simp] theorem offCsum_val : offCsum.val = 89 := rfl
@[simp] theorem offAcc_val : offAcc.val = 2 := rfl
@[simp] theorem offGyro_val : offGyro.val = 5 := rfl
@[simp] theorem offMag_val : offMag.val = 8 := rfl
@[simp] theorem offOri_val : offOri.val = 12 := rfl
@[simp] theorem motionOffA_val (e : Fin 30) : (motionOffA e).val = 20 + 2 * e.val := rfl
@[simp] theorem motionOffB_val (e : Fin 30) : (motionOffB e).val = 21 + 2 * e.val := rfl
@[simp] theorem userOff_val (j : Fin 8) : (userOff j).val = 80 + j.val := rfl

/-- An index in range is found, as itself. -/
theorem checkIndex_lt {n : Nat} {idx : Byte} (h : idx.toNat < n) : checkIndex n idx = some ⟨idx.toNat, h⟩ := by
  simp [checkIndex, h]

/-- An index out of range is not. -/
theorem checkIndex_ge {n : Nat} {idx : Byte} (h : n ≤ idx.toNat) : checkIndex n idx = none := by
  simp [checkIndex, Nat.not_lt.mpr h]

/-- What completing a command normally answers. -/
theorem State.finish_eq (s : State) (d : Word) : s.finish d = .next (s.respond .ok d) := rfl

/-- What `raise` does on the command port, whole. -/
theorem State.raise_host_eq (s : State) (e : Status) (d : Word) :
    s.raise .host e d = { s with fault := s.fault || isHardError e, rsps := s.rsps ++ [⟨e, d⟩] } := rfl

/-- What `raise` does on the RX port, whole. -/
theorem State.raise_rx_eq (s : State) (e : Status) (d : Word) :
    s.raise .rx e d = { s with fault := s.fault || isHardError e, rxrsps := s.rxrsps ++ [⟨e, false⟩] } := rfl

/-- Decoding a datagram ends in one of three ways. -/
theorem decodeDatagram_cases (bs : Datagram) :
    (bs.length ≠ 180 ∧ decodeDatagram bs = .error .lengthMismatch) ∨
    (bs.length = 180 ∧ validate (wordsOfBytes bs) = false ∧ decodeDatagram bs = .error .checksumError) ∨
    (bs.length = 180 ∧ validate (wordsOfBytes bs) = true ∧ decodeDatagram bs = .ok (wordsOfBytes bs)) := by
  have hmin : rxLenCount bs = 180 ↔ bs.length = 180 := by simp only [rxLenCount, Config.rxLenSat]; omega
  by_cases h : bs.length = 180
  · have h' := hmin.mpr h
    cases hv : validate (wordsOfBytes bs) <;> simp [decodeDatagram, h, h', hv]
  · have h' : rxLenCount bs ≠ 180 := fun e => h (hmin.mp e)
    simp [decodeDatagram, h, h']

/-- What taking the next input can do: nothing is ready, a command word is taken, or a datagram is. -/
theorem State.takeInput_cases (s : State) :
    (s.cmds = [] ∧ s.dgrams = [] ∧ s.takeInput = none) ∨
    (∃ w ws n, s.cmds = w :: ws ∧ s.takeInput = some (.command w, { s with cmds := ws, draws := n })) ∨
    (∃ d ds n, s.dgrams = d :: ds ∧ s.takeInput = some (.datagram d, { s with dgrams := ds, draws := n })) := by
  unfold State.takeInput
  split
  · simp_all
  · rename_i w ws hc hd
    exact .inr (.inl ⟨w, ws, s.draws, hc, rfl⟩)
  · rename_i d ds hc hd
    exact .inr (.inr ⟨d, ds, s.draws, hd, rfl⟩)
  · rename_i w ws d ds hc hd
    split
    · exact .inr (.inl ⟨w, ws, s.draws + 1, hc, rfl⟩)
    · exact .inr (.inr ⟨d, ds, s.draws + 1, hd, rfl⟩)

/-- A placed input is taken next. -/
theorem State.takeInput_placeInput (s : State) (p : PortInput) :
    ∃ t, (s.placeInput p).takeInput = some (p, t) := by
  cases p <;> exact ⟨_, rfl⟩

/-- What a step can do: nothing, when nothing is ready; or one HOST transaction; or one RX transaction. -/
theorem step_cases {s t : State} (h : step s = .next t) :
    (s.cmds = [] ∧ s.dgrams = [] ∧ t = s) ∨
    (∃ w ws n, s.cmds = w :: ws ∧ stepHost { s with cmds := ws, draws := n } w = .next t) ∨
    (∃ d ds n, s.dgrams = d :: ds ∧ stepRx { s with dgrams := ds, draws := n } d = .next t) := by
  rcases s.takeInput_cases with ⟨hc, hd, e⟩ | ⟨w, ws, n, hc, e⟩ | ⟨d, ds, n, hd, e⟩ <;> simp only [step, e] at h
  · cases h; exact .inl ⟨hc, hd, rfl⟩
  · exact .inr (.inl ⟨w, ws, n, hc, h⟩)
  · exact .inr (.inr ⟨d, ds, n, hd, h⟩)

end Sys2Proof.Machine
end

