-- ==== Sys2Proof/Laws/Codec.lean ====
section
/-! SUPPORT. The algebra of the 16-bit sum and of the wire bytes. -/

namespace Sys2Proof.Machine

@[simp] theorem sum16_nil : sum16 [] = 0 := rfl

theorem sum16_cons (w : Word) (ws : List Word) : sum16 (w :: ws) = w + sum16 ws := by
  simp [sum16, BitVec.ofNat_add]

theorem sum16_append (xs ys : List Word) : sum16 (xs ++ ys) = sum16 xs + sum16 ys := by
  induction xs with
  | nil => simp
  | cons x xs ih => simp [sum16_cons, ih, BitVec.add_assoc]

/-- The two forms of the negation in R9 agree. -/
theorem neg16_eq_neg (s : Word) : neg16 s = -s := by
  simp [neg16, BitVec.neg_eq_not_add]

/-- The sum, as an integer. -/
theorem sum16_toNat (ws : List Word) : (sum16 ws).toNat = (ws.map BitVec.toNat).sum % 65536 := by
  simp [sum16]

/-- A frame's words in order. -/
theorem toList_eq_ofFn (F : Frame) : F.toList = List.ofFn fun i => Frame.word F i := by
  apply List.ext_getElem
  · simp
  · intro n h1 h2
    rw [List.getElem_ofFn]
    simp [Frame.word, Vector.get_eq_getElem]

/-- A frame's first 89 words in order. -/
theorem take_toList_eq_ofFn (F : Frame) :
    F.toList.take 89 = List.ofFn fun i : Fin 89 => Frame.word F i.castSucc := by
  apply List.ext_getElem
  · simp
  · intro n h1 h2
    rw [List.getElem_ofFn]
    simp [Frame.word, Vector.get_eq_getElem]

/-- A frame is its first 89 words and its checksum word. -/
theorem toList_eq_take_append (F : Frame) :
    F.toList = F.toList.take 89 ++ [Frame.word F offCsum] := by
  have hl : F.toList.length = 90 := by simp
  conv_lhs => rw [← List.take_append_drop 89 F.toList]
  congr 1
  rw [List.drop_eq_getElem_cons (by omega), List.drop_of_length_le (by omega)]
  simp [Frame.word, offCsum, Vector.get_eq_getElem]

/-- Replacing the checksum word leaves the words it covers. -/
theorem take_put_offCsum (F : Frame) (w : Word) :
    (Frame.put F offCsum w).toList.take 89 = F.toList.take 89 := by
  apply List.ext_getElem
  · simp
  · intro n h1 h2
    simp at h1
    have hne : ¬ 89 = n := by omega
    simp [Frame.put, offCsum, hne]

/-- Word `i` of a datagram is made of its bytes `2i` and `2i + 1`. -/
theorem wordsOfBytes_word (bs : Datagram) (i : Offset) :
    Frame.word (wordsOfBytes bs) i = bs.getD (2 * i.val + 1) 0 ++ bs.getD (2 * i.val) 0 := by
  simp [Frame.word, wordsOfBytes, Vector.get_eq_getElem]

@[simp] theorem encodeBytes_length (F : Frame) : (encodeBytes F).length = 180 := by
  have h : ∀ l : List Word, (l.flatMap fun w => [lo8 w, hi8 w]).length = 2 * l.length := by
    intro l; induction l with
    | nil => rfl
    | cons w l ih => simp only [List.flatMap_cons, List.length_append, ih, List.length_cons, List.length_nil]; omega
  simp [encodeBytes, h]

/-- The bits of a word made of two bytes. -/
theorem getLsbD_byte_append (h l : Byte) (i : Nat) :
    BitVec.getLsbD (h ++ l : Word) i = if i < 8 then l.getLsbD i else h.getLsbD (i - 8) := by
  have e := BitVec.getLsbD_append (x := h) (y := l) (i := i)
  simpa using e

theorem lo8_append (h l : Byte) : lo8 (h ++ l) = l := by
  apply BitVec.eq_of_getLsbD_eq
  intro i hi
  simp only [lo8, BitVec.getLsbD_extractLsb', getLsbD_byte_append]
  simp [hi]

theorem hi8_append (h l : Byte) : hi8 (h ++ l) = h := by
  apply BitVec.eq_of_getLsbD_eq
  intro i hi
  simp only [hi8, BitVec.getLsbD_extractLsb', getLsbD_byte_append]
  simp [hi]

/-- A word is its two bytes. -/
theorem hi8_append_lo8 (w : Word) : hi8 w ++ lo8 w = w := by
  apply BitVec.eq_of_getLsbD_eq
  intro i hi
  rw [getLsbD_byte_append]
  simp only [hi8, lo8, BitVec.getLsbD_extractLsb']
  split_ifs with h
  · simp [h]
  · have h1 : i - 8 < 8 := by omega
    have h2 : 8 + (i - 8) = i := by omega
    simp [h1, h2]

/-- R9: the packed word as an integer. -/
theorem pack88_toNat (a b : Word) : (pack88 a b).toNat = a.toNat % 256 * 256 + b.toNat % 256 := by
  have e : (pack88 a b).toNat = (lo8 a).toNat <<< 8 ||| (lo8 b).toNat := BitVec.toNat_append (lo8 a) (lo8 b)
  rw [e, ← Nat.shiftLeft_add_eq_or_of_lt (lo8 b).isLt, Nat.shiftLeft_eq]
  simp [lo8, BitVec.extractLsb'_toNat]

end Sys2Proof.Machine
end

