-- ==== Sys2Proof/Laws/Decode.lean ====
section
/-! SUPPORT. The fields of an assembled command word (spec/30_encoding.md R75): each reads back as it was put in; and
the fields of a masked one. -/

namespace Sys2Proof

/-- Bit `i` of a command word, by the field it lies in. -/
theorem getLsbD_mkCommand (op idx : Byte) (a b c : Word) (i : Nat) :
    (mkCommand op idx a b c).getLsbD i =
      if i < 16 then c.getLsbD i else if i < 32 then b.getLsbD (i - 16) else if i < 48 then a.getLsbD (i - 32)
      else if i < 56 then idx.getLsbD (i - 48) else op.getLsbD (i - 56) := by
  have e4 := BitVec.getLsbD_append (x := op ++ idx ++ a ++ b) (y := c) (i := i)
  have e3 := BitVec.getLsbD_append (x := op ++ idx ++ a) (y := b) (i := i - 16)
  have e2 := BitVec.getLsbD_append (x := op ++ idx) (y := a) (i := i - 16 - 16)
  have e1 := BitVec.getLsbD_append (x := op) (y := idx) (i := i - 16 - 16 - 16)
  refine Eq.trans e4 ?_
  rw [e3, e2, e1]
  simp only [Nat.sub_sub]
  split_ifs <;> first | rfl | omega

theorem opField_mkCommand (op idx : Byte) (a b c : Word) : opField (mkCommand op idx a b c) = op := by
  apply BitVec.eq_of_getLsbD_eq
  intro i hi
  have h16 : ¬ 56 + i < 16 := by omega
  have h32 : ¬ 56 + i < 32 := by omega
  have h48 : ¬ 56 + i < 48 := by omega
  simp only [opField, BitVec.getLsbD_extractLsb', getLsbD_mkCommand]
  simp [hi, h16, h32, h48]

theorem idxField_mkCommand (op idx : Byte) (a b c : Word) : idxField (mkCommand op idx a b c) = idx := by
  apply BitVec.eq_of_getLsbD_eq
  intro i hi
  have h16 : ¬ 48 + i < 16 := by omega
  have h32 : ¬ 48 + i < 32 := by omega
  have h : 48 + i < 56 := by omega
  simp only [idxField, BitVec.getLsbD_extractLsb', getLsbD_mkCommand]
  simp [hi, h16, h32, h]

theorem aField_mkCommand (op idx : Byte) (a b c : Word) : aField (mkCommand op idx a b c) = a := by
  apply BitVec.eq_of_getLsbD_eq
  intro i hi
  have h16 : ¬ 32 + i < 16 := by omega
  have h : 32 + i < 48 := by omega
  simp only [aField, BitVec.getLsbD_extractLsb', getLsbD_mkCommand]
  simp [hi, h16, h]

theorem bField_mkCommand (op idx : Byte) (a b c : Word) : bField (mkCommand op idx a b c) = b := by
  apply BitVec.eq_of_getLsbD_eq
  intro i hi
  have h : 16 + i < 32 := by omega
  simp only [bField, BitVec.getLsbD_extractLsb', getLsbD_mkCommand]
  simp [hi, h]

theorem cField_mkCommand (op idx : Byte) (a b c : Word) : cField (mkCommand op idx a b c) = c := by
  apply BitVec.eq_of_getLsbD_eq
  intro i hi
  simp only [cField, BitVec.getLsbD_extractLsb', getLsbD_mkCommand]
  simp [hi]

/-! A field of a masked command word is the masked field. -/

theorem opField_and (w m : CommandWord) : opField (w &&& m) = opField w &&& opField m := by
  apply BitVec.eq_of_getLsbD_eq
  intro i hi
  simp [opField, hi]

theorem idxField_and (w m : CommandWord) : idxField (w &&& m) = idxField w &&& idxField m := by
  apply BitVec.eq_of_getLsbD_eq
  intro i hi
  simp [idxField, hi]

theorem aField_and (w m : CommandWord) : aField (w &&& m) = aField w &&& aField m := by
  apply BitVec.eq_of_getLsbD_eq
  intro i hi
  simp [aField, hi]

theorem bField_and (w m : CommandWord) : bField (w &&& m) = bField w &&& bField m := by
  apply BitVec.eq_of_getLsbD_eq
  intro i hi
  simp [bField, hi]

theorem cField_and (w m : CommandWord) : cField (w &&& m) = cField w &&& cField m := by
  apply BitVec.eq_of_getLsbD_eq
  intro i hi
  simp [cField, hi]

end Sys2Proof
end

