-- ==== Sys2Proof/Tests/Slice0.lean ====
section
/-! SUPPORT. Tests of the model. Expected values are those of spec/95_test_vectors.md and of the examples in the
rules, or worked out by hand from the encoding tables; and, for each statement with hypotheses, a witness that
meets them. -/

namespace Sys2Proof.Tests

open Sys2Proof Sys2Proof.Machine

/-! ### Helpers -/

/-- The reset state with words put into OUT. -/
def withOut (ws : List (Offset × Word)) : State :=
  { State.reset with out := ws.foldl (fun F p => Frame.put F p.1 p.2) zeroFrame }

/-- The reset state with words put into OUT, and a frame in IN. -/
def withIn (s : State) (ws : List (Offset × Word)) : State := { s with inb := frameOf ws }

/-- Word `j` of OUT after an operation. -/
def outWord (r : StepResult) (j : Offset) : Option Word :=
  match r with
  | .next t => some (Frame.word t.out j)
  | .fault _ => none
  | .refused _ => none

/-- Word `j` of IN after an operation. -/
def inWord (r : StepResult) (j : Offset) : Option Word :=
  match r with
  | .next t => some (Frame.word t.inb j)
  | .fault _ => none
  | .refused _ => none

/-- LINK and FAULT after an operation. -/
def flags (r : StepResult) : Option (Bool × Bool) :=
  match r with
  | .next t => some (t.link, t.fault)
  | .fault _ => none
  | .refused _ => none

/-- The last RX response after an operation. -/
def rxAnswer (r : StepResult) : Option RxResponse :=
  match r with
  | .next t => t.rxrsps.getLast?
  | .fault _ => none
  | .refused _ => none

/-- Byte `n` of the last datagram sent. -/
def sentByte (r : StepResult) (n : Nat) : Option Byte :=
  match r with
  | .next t => t.txh.getLast?.bind fun d => d[n]?
  | .fault _ => none
  | .refused _ => none

/-- 95_test_vectors.md 2.4, frame `f1`. -/
def f1 : Frame := frameOf [(0, 10005), (1, 500), (2, 0xFFFE), (88, 4)]

/-- The bytes of `f1`, as 2.4 writes them. -/
def f1Bytes : Datagram :=
  [0x15, 0x27, 0xF4, 0x01, 0xFE, 0xFF] ++ List.replicate 170 0 ++ [0x04, 0x00, 0xF5, 0xD6]

/-! ### WellFormed: what each check refuses -/

theorem test_wellFormed_refuses_datagram_on_command_port : WellFormed .host (.rxDatagram []) = false := by decide
theorem test_wellFormed_refuses_command_on_rx_port : WellFormed .rx .send = false := by decide
theorem test_wellFormed_accepts_command : WellFormed .host (.setMotion 255 0 0 0) = true := by decide
theorem test_operandInRange_refuses : operandInRange 65536 = false ∧ operandInRange (-32769) = false := by decide
theorem test_indexInRange_refuses : indexInRange 256 = false ∧ indexInRange (-1) = false := by decide
theorem test_ranges_accept_bounds :
    operandInRange 65535 = true ∧ operandInRange (-32768) = true ∧ indexInRange 255 = true := by decide

/-! ### Decode: a word of each command (R80; words of 95_test_vectors.md where it has one) -/

theorem test_decode_setMcmd : decodeCommand 0x0100_2715_0000_0000 = .ok (.setMcmd 10005) := by decide
theorem test_decode_setSeq : decodeCommand 0x0200_EA5E_0000_0000 = .ok (.setSeq 59998) := by decide
theorem test_decode_setAcc : decodeCommand 0x0300_0001_FFFE_8000 = .ok (.setAcc 1 0xFFFE 0x8000) := by decide
theorem test_decode_setGyro : decodeCommand 0x0400_0064_0000_FF9C = .ok (.setGyro 100 0 0xFF9C) := by decide
theorem test_decode_setMag : decodeCommand 0x0500_7FFF_8000_0000 = .ok (.setMag 0x7FFF 0x8000 0) := by decide
theorem test_decode_setTemp : decodeCommand 0x0600_9C40_0000_0000 = .ok (.setTemp 40000) := by decide
theorem test_decode_setOri : decodeCommand 0x0700_0000_0384_FC7C = .ok (.setOri 0 900 0xFC7C) := by decide
theorem test_decode_setBtn : decodeCommand 0x0800_4188_0000_0000 = .ok (.setBtn 16776) := by decide
theorem test_decode_setLstick : decodeCommand 0x0900_FFFF_0001_0000 = .ok (.setLstick 0xFFFF 1) := by decide
theorem test_decode_setRstick : decodeCommand 0x0A00_007F_FF80_0000 = .ok (.setRstick 127 0xFF80) := by decide
theorem test_decode_setTrig : decodeCommand 0x0B00_0080_007F_0000 = .ok (.setTrig 128 127) := by decide
theorem test_decode_setMcnt : decodeCommand 0x0C00_0100_01FF_0000 = .ok (.setMcnt 256 511) := by decide
theorem test_decode_setMotion : decodeCommand 0x0D1D_00FF_0100_7FFF = .ok (.setMotion 29 255 256 32767) := by decide
theorem test_decode_setUser : decodeCommand 0x0E07_FFFF_0000_0000 = .ok (.setUser 7 0xFFFF) := by decide
theorem test_decode_errSet : decodeCommand 0x0F00_0100_0000_0000 = .ok (.errSet 0x0100) := by decide
theorem test_decode_errClr : decodeCommand 0x1000_0000_0000_0000 = .ok .errClr := by decide
theorem test_decode_csumOut : decodeCommand 0x1100_0000_0000_0000 = .ok .csumOut := by decide
theorem test_decode_csumIn : decodeCommand 0x1200_0000_0000_0000 = .ok .csumIn := by decide
theorem test_decode_valOut : decodeCommand 0x1300_0000_0000_0000 = .ok .valOut := by decide
theorem test_decode_valIn : decodeCommand 0x1400_0000_0000_0000 = .ok .valIn := by decide
theorem test_decode_finalize : decodeCommand 0x1500_0000_0000_0000 = .ok .finalize := by decide
theorem test_decode_seqNext : decodeCommand 0x1600_EA5E_EA5F_0000 = .ok (.seqNext 59998 59999) := by decide
theorem test_decode_send : decodeCommand 0x1700_0000_0000_0000 = .ok .send := by decide
theorem test_decode_rdOut : decodeCommand 0x185A_0000_0000_0000 = .ok (.rdOut 90) := by decide
theorem test_decode_rdIn : decodeCommand 0x1959_0000_0000_0000 = .ok (.rdIn 89) := by decide
theorem test_decode_rdStat : decodeCommand 0x1A00_0000_0000_0000 = .ok .rdStat := by decide
theorem test_decode_rxDatagram : decode (.datagram [1, 2, 3]) = .ok (.rxDatagram [1, 2, 3]) := by decide
/-- V-PK25: junk in unused fields. -/
theorem test_decode_ignores_unused : decodeCommand 0x01AB_0001_CDEF_1234 = .ok (.setMcmd 1) := by decide
/-- V-EN1 to V-EN3. -/
theorem test_decode_illegal :
    decodeCommand 0 = .error (.illegalCommand 0) ∧
    decodeCommand 0x1B00_0000_0000_0000 = .error (.illegalCommand 0x1B) ∧
    decodeCommand 0xFF00_1234_5678_9ABC = .error (.illegalCommand 0xFF) := by decide
/-- R86's example word, from the encoder. -/
theorem test_encode_setMotion : encode (.setMotion 0 3 7 0xFF9C) = .command 0x0D00_0003_0007_FF9C := by decide
theorem test_encode_rdIn : encode (.rdIn 89) = .command 0x1959_0000_0000_0000 := by decide
theorem test_table_word_command : decodeTableWord 64 0x1700_0000_0000_0000 = some .send := by decide
theorem test_table_word_datagram : decodeTableWord 0 0 = some (.rxDatagram []) := by decide

/-! ### The payload packer (95_test_vectors.md 2.1) -/

theorem test_setMcmd : outWord (exec (.setMcmd 0xFFFF) State.reset) 0 = some 0xFFFF := by decide
theorem test_setSeq : outWord (exec (.setSeq 60000) State.reset) 1 = some 0xEA60 := by decide
theorem test_setAcc : (outWord (exec (.setAcc 1 0xFFFE 0x8000) State.reset) 3 = some 0xFFFE) ∧
    (outWord (exec (.setAcc 1 0xFFFE 0x8000) State.reset) 4 = some 0x8000) := by decide
theorem test_setGyro : (outWord (exec (.setGyro 100 0 0xFF9C) State.reset) 5 = some 100) ∧
    (outWord (exec (.setGyro 100 0 0xFF9C) State.reset) 7 = some 0xFF9C) := by decide
theorem test_setMag : (outWord (exec (.setMag 0x7FFF 0x8000 0) State.reset) 8 = some 0x7FFF) ∧
    (outWord (exec (.setMag 0x7FFF 0x8000 0) State.reset) 9 = some 0x8000) := by decide
theorem test_setTemp : outWord (exec (.setTemp 0xFFFF) State.reset) 11 = some 0xFFFF := by decide
theorem test_setOri : (outWord (exec (.setOri 0 900 0xFC7C) State.reset) 13 = some 0x0384) ∧
    (outWord (exec (.setOri 0 900 0xFC7C) State.reset) 14 = some 0xFC7C) := by decide
theorem test_setBtn_replaces : outWord (exec (.setBtn 0) (withOut [(15, 2049)])) 15 = some 0 := by decide
theorem test_setLstick_masks : outWord (exec (.setLstick 0x1234 0x56FF) State.reset) 16 = some 0x34FF := by decide
theorem test_setRstick : outWord (exec (.setRstick 127 0xFF80) State.reset) 17 = some 0x7F80 := by decide
theorem test_setTrig : outWord (exec (.setTrig 128 127) State.reset) 18 = some 0x807F := by decide
theorem test_setMcnt : outWord (exec (.setMcnt 256 511) State.reset) 19 = some 0x00FF := by decide
theorem test_setMotion_last : outWord (exec (.setMotion 29 255 256 32767) State.reset) 78 = some 0xFF00 ∧
    outWord (exec (.setMotion 29 255 256 32767) State.reset) 79 = some 0x7FFF := by decide
theorem test_setMotion_30 :
    lastResponse (exec (.setMotion 30 1 1 1) State.reset) = some ⟨.indexOutOfRange, 30⟩ ∧
    outWord (exec (.setMotion 30 1 1 1) State.reset) 80 = some 0 ∧
    flags (exec (.setMotion 30 1 1 1) State.reset) = some (false, true) := by decide
theorem test_setUser_last : outWord (exec (.setUser 7 0xFFFF) State.reset) 87 = some 0xFFFF := by decide
theorem test_setUser_8 :
    lastResponse (exec (.setUser 8 1) State.reset) = some ⟨.userDataIndexInvalid, 8⟩ ∧
    outWord (exec (.setUser 8 1) State.reset) 88 = some 0 ∧
    flags (exec (.setUser 8 1) State.reset) = some (false, false) := by decide
/-- V-PK10a: START, LEFT, L2, A. -/
theorem test_btnPack : btnPack { start := true, left := true, l2 := true, a := true } = 16776 := by decide
/-- The packing functions' values at the end of 2.1. -/
theorem test_pack_functions : w16 (-32769) = 0x7FFF ∧ w16 65541 = 5 ∧ pack88Int (-128) 127 = 0x807F ∧
    pack88Int 256 511 = 0x00FF ∧ sext16 0xFF9C = -100 ∧ sext8 0x80 = -128 ∧ sext8 0x7F = 127 := by decide
/-- V-PK7c and V-PK13 read back by type. -/
theorem test_readTyped : readTyped (withOut [(11, 0x9C40)]).out 11 = .signed (-25536) ∧
    readTyped (withOut [(18, 0x807F)]).out 18 = .signedPair (-128) 127 ∧
    readTyped (withOut [(20, 0x0307)]).out 20 = .bytePair 3 7 ∧
    readTyped (withOut [(21, 0xFF9C)]).out 21 = .signed (-100) := by decide

/-! ### The checksum engine (2.2) -/

theorem test_csumOut : lastResponse (exec .csumOut (withOut [(0, 1)])) = some ⟨.ok, 0xFFFF⟩ := by decide
theorem test_csumOut_ignores_checksum_word :
    lastResponse (exec .csumOut (withOut [(0, 0x8000), (1, 0x8000), (89, 77)])) = some ⟨.ok, 0⟩ := by decide
theorem test_csumIn : lastResponse (exec .csumIn (withIn State.reset [(1, 100)])) = some ⟨.ok, 0xFF9C⟩ := by decide
theorem test_valOut : lastResponse (exec .valOut (withOut [(0, 1), (89, 0xFFFE)])) = some ⟨.ok, 0⟩ := by decide
theorem test_valIn : lastResponse (exec .valIn (withIn State.reset [(1, 100)])) = some ⟨.ok, 1⟩ := by decide +kernel
theorem test_finalize :
    lastResponse (exec .finalize (withOut [(15, 2049), (20, 775), (21, 0xFF9C)])) = some ⟨.ok, 0xF55C⟩ ∧
    outWord (exec .finalize (withOut [(15, 2049), (20, 775), (21, 0xFF9C)])) 89 = some 0xF55C := by decide
/-- V-CS5: 89 words of 0xFFFF. -/
theorem test_checksum_all_ones : computeChecksum (Vector.replicate 90 0xFFFF) = 0x0059 := by decide
/-- The bytes of `f1` as the section writes them, both ways. -/
theorem test_f1_bytes : encodeBytes f1 = f1Bytes := by decide +kernel

/-! ### The sequence unit (2.3) -/

theorem test_seqNext_wraps : lastResponse (exec (.seqNext 59998 59999) State.reset) = some ⟨.ok, 0⟩ := by decide
theorem test_seqNext_greater : lastResponse (exec (.seqNext 3 5) State.reset) = some ⟨.ok, 6⟩ := by decide
theorem test_seqGt : seqGt 1 0 = true ∧ seqGt 5 5 = false ∧ seqGt 0 59999 = false ∧ seqGt 60000 59999 = true ∧
    seqGt 0x8000 0x7FFF = true := by decide

/-! ### The buffer controller (2.4, 2.5, programs P1 to P5) -/

theorem test_errSet : outWord (exec (.errSet 0x0100) (withOut [(88, 1)])) 88 = some 0x0101 := by decide
theorem test_errClr : outWord (exec .errClr (withOut [(88, 0x0101)])) 88 = some 0 := by decide
/-- P1's SEND: number 1, checksum 0xCE46, byte 40 the second sub-command. -/
theorem test_send_p1 :
    lastResponse (exec .send (withOut [(0, 10005), (15, 2049), (20, 775), (21, 0xFF9C)])) = some ⟨.ok, 1⟩ ∧
    outWord (exec .send (withOut [(0, 10005), (15, 2049), (20, 775), (21, 0xFF9C)])) 89 = some 0xCE46 ∧
    sentByte (exec .send (withOut [(0, 10005), (15, 2049), (20, 775), (21, 0xFF9C)])) 40 = some 7 ∧
    sentByte (exec .send (withOut [(0, 10005), (15, 2049), (20, 775), (21, 0xFF9C)])) 179 = some 0xCE := by decide
/-- P5a's third SEND: OUT[1] = 0 and IN[1] = 59990. -/
theorem test_send_jumps_back : lastResponse (exec .send (withIn State.reset [(1, 59990)])) = some ⟨.ok, 59991⟩ := by
  decide
theorem test_rdOut : lastResponse (exec (.rdOut 89) (withOut [(89, 5)])) = some ⟨.ok, 5⟩ ∧
    lastResponse (exec (.rdOut 90) State.reset) = some ⟨.badOffset, 90⟩ := by decide
theorem test_rdIn : lastResponse (exec (.rdIn 1) (withIn State.reset [(1, 500)])) = some ⟨.ok, 500⟩ ∧
    lastResponse (exec (.rdIn 255) State.reset) = some ⟨.badOffset, 255⟩ := by decide
theorem test_rdStat : lastResponse (exec .rdStat { State.reset with link := true, fault := true }) = some ⟨.ok, 3⟩ ∧
    lastResponse (exec .rdStat { State.reset with fault := true }) = some ⟨.ok, 2⟩ := by decide
/-- V-RX1. -/
theorem test_rx_adopts : rxAnswer (exec (.rxDatagram f1Bytes) State.reset) = some ⟨.ok, true⟩ ∧
    outWord (exec (.rxDatagram f1Bytes) State.reset) 2 = some 0xFFFE ∧
    inWord (exec (.rxDatagram f1Bytes) State.reset) 88 = some 4 := by decide +kernel
/-- V-RX2, V-RX4, V-RX5, V-RX11 and V-RX7's acceptance. -/
theorem test_rx_rejects :
    rxAnswer (exec (.rxDatagram (f1Bytes.take 179)) State.reset) = some ⟨.lengthMismatch, false⟩ ∧
    rxAnswer (exec (.rxDatagram (f1Bytes ++ [0])) State.reset) = some ⟨.lengthMismatch, false⟩ ∧
    rxAnswer (exec (.rxDatagram []) State.reset) = some ⟨.lengthMismatch, false⟩ ∧
    rxAnswer (exec (.rxDatagram (f1Bytes.set 4 0xFF)) State.reset) = some ⟨.checksumError, false⟩ ∧
    rxAnswer (exec (.rxDatagram (List.replicate 180 0)) State.reset) = some ⟨.ok, false⟩ := by decide +kernel

/-! ### Steps -/

/-- V-EN2 as a step from reset. -/
theorem test_step_illegal :
    lastResponse (step (State.reset.offerCommand 0x1B00_0000_0000_0000)) = some ⟨.illegalCommand, 27⟩ ∧
    flags (step (State.reset.offerCommand 0x1B00_0000_0000_0000)) = some (false, true) := by decide
theorem test_step_fetch_word :
    outWord (step (State.reset.withFetchWord 64 0x0100_2715_0000_0000)) 0 = some 0x2715 := by decide
theorem test_step_datagram : rxAnswer (step (State.reset.offerDatagram f1Bytes)) = some ⟨.ok, true⟩ := by decide +kernel
theorem test_step_waits : step State.reset = .next State.reset := by rfl

/-! ### The assembler (R86 to R88) -/

theorem test_assemble_setMotion :
    assembleLine 0 0 "SET_MOTION 0, 3, 7, -100 ; entry 0".toList = some [.command 0x0D00_0003_0007_FF9C] := by decide
theorem test_assemble_setBtn_names : assembleLine 0 0
    ("SET_BTN ".toList ++ [openBrace] ++ "SELECT, R1".toList ++ [closeBrace]) =
      some [.command 0x0800_0801_0000_0000] := by decide
theorem test_assemble_setMcmd_name :
    assembleLine 0 0 "SET_MCMD BOARD_TRANSMIT_ACTIVE".toList = some [.command 0x0100_2715_0000_0000] := by decide
theorem test_assemble_hex : assembleLine 0 0 "ERR_SET 0x0100".toList = some [.command 0x0F00_0100_0000_0000] := by
  decide
theorem test_assemble_refuses_range : assembleLine 0 0 "SET_TEMP 65536".toList = none := by decide
theorem test_assemble_pseudo : assembleLine 0 0 "CLR_BTN".toList = some [.command 0x0800_0000_0000_0000] ∧
    assembleLine 0 0 "FRAME_OK".toList = some [.command 0x1300_0000_0000_0000] ∧
    assembleLine 3 5 "PEEK_NEXTSEQ".toList =
      some [.command 0x1801_0000_0000_0000, .command 0x1901_0000_0000_0000, .command 0x1600_0003_0005_0000] := by
  decide
theorem test_assemble_rx_frame : parseLine
    ("RX frame".toList ++ [openBrace] ++ "w0=10005, w1=500, w2=-2, w88=4".toList ++ [closeBrace]) =
      some (.rxEvent f1Bytes) := by decide +kernel
/-- Log entry 10: no bytes, and an offset listed twice. -/
theorem test_assemble_rx_choices : parseLine "RX".toList = some (.rxEvent []) ∧
    Frame.word (frameOf [(0, 1), (0, 2)]) 0 = 2 := by decide
theorem test_assemble_rx_bytes : parseLine "RX 15 27 F4".toList = some (.rxEvent [0x15, 0x27, 0xF4]) := by decide

/-! ### Witnesses: the hypotheses of the statements can be met -/

theorem witness_unusedFieldsIgnored : decodeCommand 0x01AB_0001_CDEF_1234 = .ok (.setMcmd 1) ∧
    encode (.setMcmd 1) = .command 0x0100_0001_0000_0000 := by decide
theorem witness_illegalCommandEffect :
    (opField 0).toNat = 0 ∧ (opField 0x1B00_0000_0000_0000).toNat = 0x1B ∧
    (opField 0x0100_0000_0000_0000).toNat = 0x01 ∧ (opField 0x1A00_0000_0000_0000).toNat = 0x1A := by decide
theorem witness_stepRunsDecodedOperation_command :
    (State.reset.offerCommand 0x1700_0000_0000_0000).cmds = [0x1700_0000_0000_0000] ∧
    (State.reset.offerCommand 0x1700_0000_0000_0000).dgrams = [] ∧
    decodeCommand 0x1700_0000_0000_0000 = .ok .send := by decide
theorem witness_stepRunsDecodedOperation_illegal :
    (State.reset.offerCommand 0).cmds = [0] ∧ (State.reset.offerCommand 0).dgrams = [] ∧
    decodeCommand 0 = .error (.illegalCommand 0) := by decide
theorem witness_stepRunsDecodedOperation_datagram :
    (State.reset.offerDatagram []).cmds = [] ∧ (State.reset.offerDatagram []).dgrams = [[]] := by decide
theorem witness_stepRunsDecodedOperation_waits : State.reset.cmds = [] ∧ State.reset.dgrams = [] := by decide
theorem witness_contestedStep :
    ((State.reset.offerCommand 0x1700_0000_0000_0000).offerDatagram []).cmds = [0x1700_0000_0000_0000] ∧
    ((State.reset.offerCommand 0x1700_0000_0000_0000).offerDatagram []).dgrams = [[]] := by decide
theorem witness_stepConsumesOne : (∃ t, step (State.reset.offerCommand 0) = .next t) ∧
    (∃ t, step (State.reset.offerDatagram []) = .next t) ∧ ∃ t, step State.reset = .next t :=
  ⟨⟨_, rfl⟩, ⟨_, rfl⟩, ⟨_, rfl⟩⟩
theorem witness_pairSetters :
    (0x34FF : Word).toNat = (0x1234 : Word).toNat % 256 * 256 + (0x56FF : Word).toNat % 256 := by decide
theorem witness_setMotion_bounds : (29 : Byte).toNat < 30 ∧ ¬ (30 : Byte).toNat < 30 := by decide
theorem witness_setUser_bounds : (7 : Byte).toNat < 8 ∧ ¬ (8 : Byte).toNat < 8 := by decide
theorem witness_settersReadNothing : isSetter (.setMotion 30 0 0 0) = true ∧ isSetter (.setMcmd 0) = true := by decide
theorem witness_inRangeValues : (-32768 : Int) ≤ -32768 ∧ (32767 : Int) ≤ 32767 ∧ sext16 (w16 (-32768)) = -32768 ∧
    sext16 (w16 32767) = 32767 ∧ sext8 (b8 (-128)) = -128 ∧ sext8 (b8 127) = 127 := by decide
theorem witness_oneChangedWord : validate zeroFrame = true ∧ (1 : Word) ≠ Frame.word zeroFrame 5 := by decide
theorem witness_datagram_bad_length : (f1Bytes.take 179).length = 179 ∧ (f1Bytes.take 179).length ≠ 180 := by decide +kernel
theorem witness_datagram_bad_sum : (f1Bytes.set 4 0xFF).length = 180 ∧
    (∑ i : Offset, wireWord (f1Bytes.set 4 0xFF) i) % 65536 ≠ 0 := by decide +kernel
theorem witness_datagram_good : f1Bytes.length = 180 ∧ (∑ i : Offset, wireWord f1Bytes i) % 65536 = 0 := by decide +kernel
theorem witness_codecLaws_valid : validate f1 = true := by decide +kernel
theorem witness_inboundValid_reset : InboundValid State.reset := by
  show validate _ = true
  decide
theorem witness_sequenceOrder : seqGt 3 2 = true ∧ seqGt 2 1 = true ∧ (3 : Word) ≠ 2 := by decide
theorem witness_sequenceIncrement : 59999 ≤ (59999 : Word).toNat ∧ (59998 : Word).toNat ≤ 59998 ∧
    (59999 : Word).toNat ≤ 59999 := by decide
theorem witness_errorWord : Frame.word State.reset.out 88 = 0 := by decide
theorem witness_rx_equal_number_not_greater :
    (Frame.word f1 1).toNat ≤ (Frame.word (withOut [(1, 500)]).out 1).toNat ∧
    (Frame.word (withOut [(1, 499)]).out 1).toNat < (Frame.word f1 1).toNat := by decide
theorem witness_sendAfterAdoption : ∃ F t, decodeDatagram f1Bytes = .ok F ∧
    seqGt (Frame.word F 1) (Frame.word State.reset.out 1) = true ∧
    exec (.rxDatagram f1Bytes) State.reset = .next t := by
  have h : decodeDatagram f1Bytes = .ok (wordsOfBytes f1Bytes) := by decide +kernel
  exact ⟨_, State.reset.receive (wordsOfBytes f1Bytes), h, by decide +kernel, by simp only [exec, execRxDatagram, h]⟩
theorem witness_readCommands_bounds : (89 : Byte).toNat = (89 : Offset).val ∧ 90 ≤ (90 : Byte).toNat := by decide
theorem witness_sendsCountUp : Frame.word (withOut [(1, 59999)]).inb 1 = 0 ∧
    59999 = max (Frame.word (withOut [(1, 59999)]).out 1).toNat (Frame.word (withOut [(1, 59999)]).inb 1).toNat := by
  decide
theorem witness_sendsCountUp_noWrap : (59990 : Nat) =
      max (Frame.word (withIn (withOut [(1, 500)]) [(1, 59990)]).out 1).toNat
        (Frame.word (withIn (withOut [(1, 500)]) [(1, 59990)]).inb 1).toNat ∧ 59990 + 9 ≤ 59999 := by decide
theorem witness_sendsCarryZero : 59999 ≤ (Frame.word (withIn State.reset [(1, 59999)]).inb 1).toNat := by decide
theorem witness_sendsJumpBack :
    (Frame.word (withIn (withOut [(1, 59999)]) [(1, 59990)]).out 1).toNat = 59999 ∧
    1 ≤ (Frame.word (withIn (withOut [(1, 59999)]) [(1, 59990)]).inb 1).toNat ∧
    (Frame.word (withIn (withOut [(1, 59999)]) [(1, 59990)]).inb 1).toNat + 9 ≤ 59999 := by decide
theorem witness_errors_command : ∃ t, stepHost State.reset 0 = .next t ∧
    t.rsps = [⟨.illegalCommand, 0⟩] := ⟨_, rfl, by decide⟩
theorem witness_errors_datagram : ∃ t, stepRx State.reset [] = .next t ∧
    t.rxrsps = [⟨.lengthMismatch, false⟩] := ⟨_, rfl, by decide⟩
theorem witness_hostCommand : WellFormed .host .send = true ∧ ∃ t, exec .send State.reset = .next t :=
  ⟨by decide, _, rfl⟩
theorem witness_sentValid_reset : SentValid State.reset := by
  intro d hd
  simp [State.reset] at hd
theorem witness_flagsExact_reset : FaultExact State.reset ∧ LinkExact State.reset := ⟨rfl, rfl⟩
theorem witness_flagsGateNothing : (Instr.send ≠ .rdStat) := by decide
theorem witness_firstAnswers : ∃ F, decodeDatagram f1Bytes = .ok F ∧ 1 ≤ (Frame.word F 1).toNat :=
  ⟨wordsOfBytes f1Bytes, by decide +kernel, by decide +kernel⟩

theorem witness_finalize_changed_word : (1 : Word) ≠ Frame.word (finalizeFrame zeroFrame) 0 := by decide
theorem witness_assembler_bounds : asmOperand (-32768) = some 0x8000 ∧ asmOperand 65535 = some 0xFFFF ∧
    asmOperand (-32769) = none ∧ asmOperand 65536 = none ∧ asmIndex 0 = some 0 ∧ asmIndex 255 = some 255 ∧
    asmIndex (-1) = none ∧ asmIndex 256 = none := by decide

theorem witness_decodesTo : opField 0x1700_0000_0000_0000 = 0x17 ∧ opField 0x0A00_007F_FF80_0000 = 0x0A := by decide
theorem witness_faultIsSticky : ∃ t, exec (.rdOut 90) State.reset = .next t ∧ t.fault = true := ⟨_, rfl, by decide⟩
theorem witness_linkMoves : ∃ t, exec .send State.reset = .next t ∧ t.link = true := ⟨_, rfl, rfl⟩
theorem witness_inboundStaysValid : InboundValid (State.reset.offerCommand 0x1700_0000_0000_0000) ∧
    ∃ t, step (State.reset.offerCommand 0x1700_0000_0000_0000) = .next t :=
  ⟨witness_inboundValid_reset, _, rfl⟩
theorem witness_sentDatagramsStayAcceptable : SentValid (State.reset.offerCommand 0x1700_0000_0000_0000) ∧
    ∃ t, step (State.reset.offerCommand 0x1700_0000_0000_0000) = .next t :=
  ⟨witness_sentValid_reset, _, rfl⟩
theorem witness_flagsStayExact : FaultExact (State.reset.offerCommand 0) ∧ LinkExact (State.reset.offerCommand 0) ∧
    ∃ t, step (State.reset.offerCommand 0) = .next t ∧ t.fault = true :=
  ⟨rfl, rfl, _, rfl, by decide⟩
theorem witness_errorAnswers_last : lastResponse (stepHost State.reset 0) = some ⟨.illegalCommand, 0⟩ := by decide

end Sys2Proof.Tests
end

section
/-! What an operation of the block can do, said once for every operation (R11, R13.2, R203): an `Effect`, found from
the block's own state alone, that writes frames and flags and adds to the records of outputs. -/

namespace Sys2Proof.Machine

/-- R13.2, R14: the whole state of the block, which is all of `State` that an operation can read. -/
structure Block where
  out : Frame
  inb : Frame
  link : Bool
  fault : Bool

/-- The block's own state in a state of the machine. -/
def State.block (s : State) : Block := ⟨s.out, s.inb, s.link, s.fault⟩

/-- R190: the errors a HOST command can end with. -/
def hostErrors : List Status := [.indexOutOfRange, .userDataIndexInvalid, .illegalCommand, .badOffset]

/-- R190: the errors a datagram can end with. -/
def rxErrors : List Status := [.lengthMismatch, .checksumError]

/-- What an operation of an agent does (R11): all the ways a HOST command and an RX datagram can end. -/
inductive Effect : Agent → Type where
  /-- OUT becomes `F` and the command answers OK with `data`. -/
  | answer (F : Frame) (data : Word) : Effect .host
  /-- R170: OUT becomes `F`, which is sent, and the command answers OK with its number. -/
  | transmit (F : Frame) (seq : Word) : Effect .host
  /-- R203: the command is abandoned with an error. -/
  | reject (e : Status) (info : Word) (he : e ∈ hostErrors) : Effect .host
  /-- R175: the datagram is dropped with an error. -/
  | drop (e : Status) (he : e ∈ rxErrors) : Effect .rx
  /-- R175: the frame of the datagram is accepted, and adopted as OUT if `adopted`. -/
  | accept (F : Frame) (adopted : Bool) : Effect .rx

namespace Effect

variable {a : Agent}

/-- The state an effect leaves. -/
def on : Effect a → State → State
  | answer F data, s => State.respond { s with out := F } .ok data
  | transmit F seq, s => (State.emit { s with out := F } (encodeBytes F)).activateLink.respond .ok seq
  | reject e info _, s => s.raise .host e info
  | drop e _, s => s.raise .rx e 0
  | accept F adopted, s =>
    State.rxRespond { s with inb := F, link := true, out := if adopted then F else s.out } .ok adopted

/-- The datagrams an effect adds to TXH. -/
def sent : Effect a → List Datagram
  | transmit F _ => [encodeBytes F]
  | answer _ _ | reject _ _ _ | drop _ _ | accept _ _ => []

/-- The responses an effect adds to the record of the command port. -/
def responses : Effect a → List Response
  | answer _ data => [⟨.ok, data⟩]
  | transmit _ seq => [⟨.ok, seq⟩]
  | reject e info _ => [⟨e, info⟩]
  | drop _ _ | accept _ _ => []

/-- The RX responses an effect adds to the record of the RX port. -/
def rxResponses : Effect a → List RxResponse
  | answer _ _ | transmit _ _ | reject _ _ _ => []
  | drop e _ => [⟨e, false⟩]
  | accept _ adopted => [⟨.ok, adopted⟩]

/-! What an effect leaves in each field. -/

@[simp] theorem on_txh (e : Effect a) (s : State) : (e.on s).txh = s.txh ++ e.sent := by
  cases e <;> simp [on, sent]

@[simp] theorem on_rsps (e : Effect a) (s : State) : (e.on s).rsps = s.rsps ++ e.responses := by
  cases e <;> simp [on, responses]

@[simp] theorem on_rxrsps (e : Effect a) (s : State) : (e.on s).rxrsps = s.rxrsps ++ e.rxResponses := by
  cases e <;> simp [on, rxResponses]

@[simp] theorem on_cmds (e : Effect a) (s : State) : (e.on s).cmds = s.cmds := by cases e <;> rfl

@[simp] theorem on_dgrams (e : Effect a) (s : State) : (e.on s).dgrams = s.dgrams := by cases e <;> rfl

@[simp] theorem on_draws (e : Effect a) (s : State) : (e.on s).draws = s.draws := by cases e <;> rfl

/-- The block's own state after an effect depends on the block's own state before it alone. -/
theorem on_block_congr (e : Effect a) {s u : State} (h : s.block = u.block) : (e.on s).block = (e.on u).block := by
  obtain ⟨hout, hinb, hlink, hfault⟩ := Block.mk.inj h
  cases e <;> simp [on, State.block, hout, hinb, hlink, hfault]

/-! What the effects of each agent add to the records. -/

/-- R11, R190: a HOST command gives one response, OK or one of the HOST errors. -/
theorem responses_host (e : Effect .host) : ∃ r, e.responses = [r] ∧ r.status ∈ Status.ok :: hostErrors := by
  cases e with
  | answer F data => exact ⟨_, rfl, List.mem_cons_self⟩
  | transmit F seq => exact ⟨_, rfl, List.mem_cons_self⟩
  | reject e info he => exact ⟨_, rfl, List.mem_cons_of_mem _ he⟩

@[simp] theorem rxResponses_host (e : Effect .host) : e.rxResponses = [] := by cases e <;> rfl

/-- R170: a HOST command sends at most one datagram, of 180 bytes. -/
theorem sent_host (e : Effect .host) : e.sent = [] ∨ ∃ d, e.sent = [d] ∧ d.length = 180 := by
  cases e with
  | answer F data => exact .inl rfl
  | transmit F seq => exact .inr ⟨_, rfl, encodeBytes_length F⟩
  | reject e info he => exact .inl rfl

/-- R11, R190: a datagram gives one RX response, OK or one of the RX errors, and is adopted only with OK. -/
theorem rxResponses_rx (e : Effect .rx) :
    ∃ r, e.rxResponses = [r] ∧ r.status ∈ Status.ok :: rxErrors ∧ (r.adopted = true → r.status = .ok) := by
  cases e with
  | drop e he => exact ⟨_, rfl, List.mem_cons_of_mem _ he, nofun⟩
  | accept F adopted => exact ⟨_, rfl, List.mem_cons_self, fun _ => rfl⟩

@[simp] theorem responses_rx (e : Effect .rx) : e.responses = [] := by cases e <;> rfl

@[simp] theorem sent_rx (e : Effect .rx) : e.sent = [] := by cases e <;> rfl

/-- R198: no RX error is hard, so a datagram leaves FAULT. -/
theorem on_fault_rx (e : Effect .rx) (s : State) : (e.on s).fault = s.fault := by
  cases e with
  | drop err he =>
    have soft : ∀ err ∈ rxErrors, isHardError err = false := by decide
    simp [on, soft err he]
  | accept F adopted => rfl

end Effect

/-- An operation of agent `a` completes from every state, with an effect that is a function of the block's own state
(R13.2, R13.5). -/
def HasEffect (a : Agent) (op : State → StepResult) : Prop :=
  ∃ k : Block → Effect a, ∀ s, op s = .next ((k s.block).on s)

theorem hasEffect_finish (d : Block → Word) : HasEffect .host fun s => s.finish (d s.block) :=
  ⟨fun b => .answer b.out (d b), fun _ => rfl⟩

theorem hasEffect_writeOut (i : Offset) (w d : Block → Word) :
    HasEffect .host fun s => (s.writeOut i (w s.block)).finish (d s.block) :=
  ⟨fun b => .answer (Frame.put b.out i (w b)) (d b), fun _ => rfl⟩

theorem hasEffect_writeOut3 (i : Fin 88) (x y z d : Word) :
    HasEffect .host fun s => (s.writeOut3 i x y z).finish d :=
  ⟨fun b => .answer (Frame.put3 b.out i x y z) d, fun _ => rfl⟩

theorem hasEffect_raise_host {e : Status} (info : Word) (he : e ∈ hostErrors) :
    HasEffect .host fun s => .next (s.raise .host e info) :=
  ⟨fun _ => .reject e info he, fun _ => rfl⟩

theorem hasEffect_raise_rx {e : Status} (he : e ∈ rxErrors) : HasEffect .rx fun s => .next (s.raise .rx e 0) :=
  ⟨fun _ => .drop e he, fun _ => rfl⟩

theorem hasEffect_receive (F : Frame) : HasEffect .rx fun s => .next (s.receive F) :=
  ⟨fun b => .accept F (seqGt (Frame.word F offSeq) (Frame.word b.out offSeq)), fun _ => rfl⟩

theorem hasEffect_send : HasEffect .host execSend :=
  ⟨fun b => .transmit (sendFrame b.out b.inb) (nextSequence (Frame.word b.out offSeq) (Frame.word b.inb offSeq)),
    fun _ => rfl⟩

/-! The commands that test an index (R73), and the datagram. -/

theorem hasEffect_setMotion (idx : Byte) (sub1 sub2 value : Word) :
    HasEffect .host (execSetMotion idx sub1 sub2 value) := by
  unfold execSetMotion
  cases checkIndex 30 idx with
  | none => exact hasEffect_raise_host _ (by decide)
  | some e =>
    exact ⟨fun b => .answer (Frame.put (Frame.put b.out (motionOffA e) (pack88 sub1 sub2)) (motionOffB e) value) 0,
      fun _ => rfl⟩

theorem hasEffect_setUser (idx : Byte) (value : Word) : HasEffect .host (execSetUser idx value) := by
  unfold execSetUser
  cases checkIndex 8 idx with
  | none => exact hasEffect_raise_host _ (by decide)
  | some j => exact hasEffect_writeOut (userOff j) (fun _ => value) fun _ => 0

theorem hasEffect_rdOut (idx : Byte) : HasEffect .host (execRdOut idx) := by
  unfold execRdOut
  cases checkIndex 90 idx with
  | none => exact hasEffect_raise_host _ (by decide)
  | some i => exact hasEffect_finish fun b => Frame.word b.out i

theorem hasEffect_rdIn (idx : Byte) : HasEffect .host (execRdIn idx) := by
  unfold execRdIn
  cases checkIndex 90 idx with
  | none => exact hasEffect_raise_host _ (by decide)
  | some i => exact hasEffect_finish fun b => Frame.word b.inb i

theorem hasEffect_rxDatagram (bytes : Datagram) : HasEffect .rx (execRxDatagram bytes) := by
  unfold execRxDatagram
  rcases decodeDatagram_cases bytes with ⟨-, hd⟩ | ⟨-, -, hd⟩ | ⟨-, -, hd⟩ <;> rw [hd]
  · exact hasEffect_raise_rx (by decide)
  · exact hasEffect_raise_rx (by decide)
  · exact hasEffect_receive _

/-- Every operation completes, with an effect of its own agent found from the block's own state. -/
theorem exec_hasEffect (i : Instr) : HasEffect i.agent (exec i) := by
  cases i with
  | setMcmd code => exact hasEffect_writeOut offMcmd (fun _ => code) fun _ => 0
  | setSeq seq => exact hasEffect_writeOut offSeq (fun _ => seq) fun _ => 0
  | setAcc x y z => exact hasEffect_writeOut3 offAcc x y z 0
  | setGyro x y z => exact hasEffect_writeOut3 offGyro x y z 0
  | setMag x y z => exact hasEffect_writeOut3 offMag x y z 0
  | setTemp t => exact hasEffect_writeOut offTemp (fun _ => t) fun _ => 0
  | setOri roll pitch yaw => exact hasEffect_writeOut3 offOri roll pitch yaw 0
  | setBtn buttons => exact hasEffect_writeOut offBtn (fun _ => buttons) fun _ => 0
  | setLstick h v => exact hasEffect_writeOut offLstick (fun _ => pack88 h v) fun _ => 0
  | setRstick h v => exact hasEffect_writeOut offRstick (fun _ => pack88 h v) fun _ => 0
  | setTrig x y => exact hasEffect_writeOut offTrig (fun _ => pack88 x y) fun _ => 0
  | setMcnt x y => exact hasEffect_writeOut offMcnt (fun _ => pack88 x y) fun _ => 0
  | setMotion idx sub1 sub2 value => exact hasEffect_setMotion idx sub1 sub2 value
  | setUser idx value => exact hasEffect_setUser idx value
  | errSet code => exact hasEffect_writeOut offErr (fun b => Frame.word b.out offErr ||| code) fun _ => 0
  | errClr => exact hasEffect_writeOut offErr (fun _ => 0) fun _ => 0
  | csumOut => exact hasEffect_finish fun b => computeChecksum b.out
  | csumIn => exact hasEffect_finish fun b => computeChecksum b.inb
  | valOut => exact hasEffect_finish fun b => if validate b.out then 1 else 0
  | valIn => exact hasEffect_finish fun b => if validate b.inb then 1 else 0
  | finalize => exact hasEffect_writeOut offCsum (fun b => computeChecksum b.out) fun b => computeChecksum b.out
  | seqNext m n => exact hasEffect_finish fun _ => nextSequence m n
  | send => exact hasEffect_send
  | rdOut idx => exact hasEffect_rdOut idx
  | rdIn idx => exact hasEffect_rdIn idx
  | rdStat => exact hasEffect_finish fun b => statusWord b.link b.fault
  | rxDatagram bytes => exact hasEffect_rxDatagram bytes

/-- From two states with the same block an operation has the same effect, and leaves the same block (R13.2). -/
theorem exec_same_effect (i : Instr) {s u : State} (h : s.block = u.block) :
    ∃ e : Effect i.agent, exec i s = .next (e.on s) ∧ exec i u = .next (e.on u) ∧ (e.on s).block = (e.on u).block := by
  obtain ⟨k, hk⟩ := exec_hasEffect i
  exact ⟨k s.block, hk s, h ▸ hk u, Effect.on_block_congr _ h⟩

/-- R206: a command word decodes only to commands of the HOST. -/
theorem agent_of_decodeCommand {w : CommandWord} {i : Instr} (h : decodeCommand w = .ok i) : i.agent = .host := by
  unfold decodeCommand at h
  split at h <;> cases h <;> rfl

theorem stepHost_of_decodes {w : CommandWord} {i : Instr} (h : decodeCommand w = .ok i) (s : State) :
    stepHost s w = exec i s := by
  simp [stepHost, runInput, decode, h]

theorem stepHost_of_illegal {w : CommandWord} {op : Byte} (h : decodeCommand w = .error (.illegalCommand op))
    (s : State) : stepHost s w = .next (s.illegalCommand op) := by
  simp [stepHost, runInput, decode, h]

/-- Every command word is a HOST operation, the illegal ones included (R82). -/
theorem stepHost_hasEffect (w : CommandWord) : HasEffect .host fun s => stepHost s w := by
  cases hd : decodeCommand w with
  | ok i =>
    simp only [stepHost_of_decodes hd]
    exact agent_of_decodeCommand hd ▸ exec_hasEffect i
  | error e =>
    obtain ⟨op⟩ := e
    simp only [stepHost_of_illegal hd]
    exact hasEffect_raise_host (zext16 op) (by decide)

/-- Every byte list is an RX operation (R80). -/
theorem stepRx_hasEffect (bytes : Datagram) : HasEffect .rx fun s => stepRx s bytes := hasEffect_rxDatagram bytes

/-- R13.5: a step completes from every state. -/
theorem step_completes (s : State) : ∃ t, step s = .next t := by
  rcases s.takeInput_cases with ⟨-, -, ht⟩ | ⟨w, ws, n, -, ht⟩ | ⟨d, ds, n, -, ht⟩ <;> simp only [step, ht]
  · exact ⟨s, rfl⟩
  · obtain ⟨k, hk⟩ := stepHost_hasEffect w
    exact ⟨_, hk _⟩
  · obtain ⟨k, hk⟩ := stepRx_hasEffect d
    exact ⟨_, hk _⟩

/-- A step waits, or takes the oldest input of one port and has an effect of that port's agent. -/
theorem step_effect_cases {s t : State} (h : step s = .next t) :
    (s.cmds = [] ∧ s.dgrams = [] ∧ t = s) ∨
    (∃ (e : Effect .host) (w : CommandWord) (ws : List CommandWord) (n : Nat),
      s.cmds = w :: ws ∧ t = e.on { s with cmds := ws, draws := n }) ∨
    (∃ (e : Effect .rx) (d : Datagram) (ds : List Datagram) (n : Nat),
      s.dgrams = d :: ds ∧ t = e.on { s with dgrams := ds, draws := n }) := by
  rcases step_cases h with waits | ⟨w, ws, n, hc, hw⟩ | ⟨d, ds, n, hd, hr⟩
  · exact .inl waits
  · obtain ⟨k, hk⟩ := stepHost_hasEffect w
    cases (hk _).symm.trans hw
    exact .inr (.inl ⟨_, w, ws, n, hc, rfl⟩)
  · obtain ⟨k, hk⟩ := stepRx_hasEffect d
    cases (hk _).symm.trans hr
    exact .inr (.inr ⟨_, d, ds, n, hd, rfl⟩)

/-- R13.5: an event of a run completes from every state. -/
theorem runEvent_completes (e : Event) (s : State) : ∃ t, runEvent e s = .next t := by
  cases e with
  | offerCommand w => exact ⟨_, rfl⟩
  | offerDatagram bytes => exact ⟨_, rfl⟩
  | stepBlock => exact step_completes s

end Sys2Proof.Machine
end

section
/-! The statements about the scope of the block (spec/00_scope.md): what it takes and answers, that it never stops,
and what its operations do not read. -/

namespace Sys2Proof.Machine

/-- Settles O8: a step that does not wait is one transaction, whose effect is that of one agent. -/
theorem stepConsumesOneAndAnswersOnce : Obligations.StepConsumesOneAndAnswersOnce := by
  intro s t h
  rcases step_effect_cases h with waits | ⟨e, w, ws, n, hc, rfl⟩ | ⟨e, d, ds, n, hd, rfl⟩
  · exact .inl waits
  · obtain ⟨r, hr, -⟩ := e.responses_host
    exact .inr (.inl ⟨w, r, by simpa using hc, by simp, by simpa using hr, by simp⟩)
  · obtain ⟨r, hr, -⟩ := e.rxResponses_rx
    exact .inr (.inr ⟨d, r, by simpa using hd, by simp, by simpa using hr, by simp⟩)

/-- Settles O9, by induction on the events of the run. -/
theorem everyRunCompletes : Obligations.EveryRunCompletes := by
  intro es
  induction es with
  | nil => exact fun s => ⟨s, rfl⟩
  | cons e es ih =>
    intro s
    obtain ⟨t, ht⟩ := runEvent_completes e s
    simpa only [runEvents, ht] using ih t

/-- Settles O45: a command word has a HOST effect and a byte list an RX effect. -/
theorem transactionsAlwaysAnswerOnce : Obligations.TransactionsAlwaysAnswerOnce := by
  refine ⟨fun s w => ?_, fun s bs => ?_⟩
  · obtain ⟨k, hk⟩ := stepHost_hasEffect w
    obtain ⟨r, hr, hstatus⟩ := (k s.block).responses_host
    exact ⟨_, r, hk s, by simp [hr], by simp, hstatus, by simpa using (k s.block).sent_host⟩
  · obtain ⟨k, hk⟩ := stepRx_hasEffect bs
    obtain ⟨r, hr, hstatus, hadopted⟩ := (k s.block).rxResponses_rx
    exact ⟨_, r, hk s, by simp [hr], by simp, hstatus, hadopted, by simp, (k s.block).on_fault_rx s⟩

/-- Settles O51: the two states have the same block, so the operation has the same effect on both. -/
theorem recordsAndInputsAreNotRead : Obligations.RecordsAndInputsAreNotRead := by
  intro i s u
  obtain ⟨e, hs, hu, hblock⟩ := exec_same_effect i
    (u := { u with out := s.out, inb := s.inb, link := s.link, fault := s.fault }) (rfl : s.block = _)
  obtain ⟨hout, hinb, hlink, hfault⟩ := Block.mk.inj hblock
  exact ⟨_, _, hs, hu, hout.symm, hinb.symm, hlink.symm, hfault.symm, ⟨e.sent, by simp, by simp⟩,
    ⟨e.responses, by simp, by simp⟩, ⟨e.rxResponses, by simp, by simp⟩, by simp, by simp, by simp⟩

end Sys2Proof.Machine
end

section
/-! The codec facts that the invariants rest on: which frames are valid (R131, R137), and that a datagram made of a
valid frame is accepted as that frame (R132, R133). -/

namespace Sys2Proof.Machine

/-- R130, R131: a frame is valid exactly when word 89 holds its checksum. -/
theorem validate_iff (F : Frame) : validate F = true ↔ Frame.word F offCsum = computeChecksum F := by
  have hsum : sum16 F.toList = Frame.word F offCsum + sum16 (F.toList.take 89) := by
    conv_lhs => rw [toList_eq_take_append F, sum16_append, BitVec.add_comm]
    simp [sum16_cons]
  rw [validate, beq_iff_eq, hsum, computeChecksum, neg16_eq_neg]
  exact eq_neg_iff_add_eq_zero.symm

/-- R137: finalizing makes any frame valid. -/
theorem validate_finalizeFrame (F : Frame) : validate (finalizeFrame F) = true := by
  simp [validate_iff, finalizeFrame, computeChecksum, take_put_offCsum]

theorem validate_zeroFrame : validate zeroFrame = true := by simp [validate, zeroFrame, sum16]

/-- R41, R132: where the two bytes of word `i` stand on the wire. -/
theorem wireBytes_getElem? (ws : List Word) (i : Nat) :
    (ws.flatMap fun w => [lo8 w, hi8 w])[2 * i]? = ws[i]?.map lo8 ∧
    (ws.flatMap fun w => [lo8 w, hi8 w])[2 * i + 1]? = ws[i]?.map hi8 := by
  induction ws generalizing i with
  | nil => simp
  | cons w ws ih =>
    cases i with
    | zero => simp
    | succ i => simpa [Nat.mul_succ] using ih i

/-- R133 undoes R132. -/
theorem wordsOfBytes_encodeBytes (F : Frame) : wordsOfBytes (encodeBytes F) = F := by
  apply Frame.ext_word
  intro i
  obtain ⟨hlo, hhi⟩ := wireBytes_getElem? F.toList i
  have hw : F.toList[i.val]? = some (Frame.word F i) := by simp [Frame.word, Vector.get_eq_getElem]
  simp only [wordsOfBytes_word, encodeBytes, List.getD_eq_getElem?_getD, hlo, hhi, hw, Option.map_some,
    Option.getD_some, hi8_append_lo8]

/-- R31, R133: a receiver accepts the datagram of a valid frame, as that frame. -/
theorem decodeDatagram_encodeBytes {F : Frame} (h : validate F = true) :
    decodeDatagram (encodeBytes F) = .ok F := by
  rcases decodeDatagram_cases (encodeBytes F) with ⟨hlen, -⟩ | ⟨-, hv, -⟩ | ⟨-, -, hd⟩
  · exact absurd (encodeBytes_length F) hlen
  · rw [wordsOfBytes_encodeBytes, h] at hv
    cases hv
  · rwa [wordsOfBytes_encodeBytes] at hd

end Sys2Proof.Machine
end

section
/-! What an effect does to the flags and to IN, and which effects an operation and a step can have: those that send or
accept valid frames only. -/

namespace Sys2Proof.Machine

/-- The same state with other flags. -/
def State.withFlags (s : State) (link fault : Bool) : State := { s with link := link, fault := fault }

namespace Effect

variable {a : Agent}

/-- R24: the effect makes LINK ACTIVE. -/
def activates : Effect a → Bool
  | transmit _ _ | accept _ _ => true
  | answer _ _ | reject _ _ _ | drop _ _ => false

/-- R23, R31: the frame the effect sends or accepts is valid. -/
def FramesValid : Effect a → Prop
  | transmit F _ | accept F _ => validate F = true
  | answer _ _ | reject _ _ _ | drop _ _ => True

/-! What an effect leaves in the flags, and how the records show it. -/

@[simp] theorem on_link (e : Effect a) (s : State) : (e.on s).link = (s.link || e.activates) := by
  cases e <;> simp [on, activates]

/-- R25, R198: an effect sets FAULT by a response with a hard status. -/
@[simp] theorem on_fault (e : Effect a) (s : State) :
    (e.on s).fault = (s.fault || e.responses.any fun r => isHardError r.status) := by
  cases e with
  | drop err he => simpa [responses] using on_fault_rx (.drop err he) s
  | reject err info he => simp [on, responses]
  | answer F data => simp [on, responses, isHardError]
  | transmit F seq => simp [on, responses, isHardError]
  | accept F adopted => simp [on, responses]

/-- R24: the effects that make LINK ACTIVE are those that send a datagram or answer one with OK. -/
theorem activates_eq_records (e : Effect a) :
    e.activates = (!e.sent.isEmpty || e.rxResponses.any fun r => r.status == .ok) := by
  cases e with
  | drop err he =>
    have notOk : ∀ err ∈ rxErrors, (err == .ok) = false := by decide
    simp [activates, sent, rxResponses, notOk err he]
  | _ => rfl

/-- R24, R25: an effect does the same from a state with other flags, but for the flags. -/
theorem on_withFlags (e : Effect a) (s : State) (l f : Bool) :
    (e.on (s.withFlags l f)).withFlags (e.on s).link (e.on s).fault = e.on s := by
  cases e <;> rfl

/-! The invariants under an effect. -/

/-- R23: an effect leaves IN or replaces it by the valid frame it accepts. -/
theorem on_inboundValid {e : Effect a} {s : State} (he : e.FramesValid) (hs : InboundValid s) :
    InboundValid (e.on s) := by
  cases e with
  | accept F adopted => exact he
  | _ => exact hs

/-- R31: what an effect sends, a receiver accepts. -/
theorem sent_acceptable {e : Effect a} (he : e.FramesValid) :
    ∀ d ∈ e.sent, d.length = Config.frameBytes ∧ ∃ F, decodeDatagram d = .ok F := by
  cases e with
  | transmit F seq =>
    intro d hd
    obtain rfl := List.mem_singleton.mp hd
    exact ⟨encodeBytes_length F, F, decodeDatagram_encodeBytes he⟩
  | _ => exact nofun

theorem on_sentValid {e : Effect a} {s : State} (he : e.FramesValid) (hs : SentValid s) : SentValid (e.on s) := by
  intro d hd
  rw [on_txh, List.mem_append] at hd
  exact hd.elim (hs d) (sent_acceptable he d)

theorem on_faultExact (e : Effect a) {s : State} (hs : FaultExact s) : FaultExact (e.on s) := by
  simp only [FaultExact] at hs ⊢
  rw [on_fault, on_rsps, List.any_append, hs]

theorem on_linkExact (e : Effect a) {s : State} (hs : LinkExact s) : LinkExact (e.on s) := by
  simp only [LinkExact] at hs ⊢
  have sentEmpty : (s.txh ++ e.sent).isEmpty = (s.txh.isEmpty && e.sent.isEmpty) := by cases s.txh <;> rfl
  rw [on_link, on_txh, on_rxrsps, sentEmpty, List.any_append, hs, activates_eq_records, Bool.not_and]
  ac_rfl

end Effect

/-- `e` is what operation `i` does from `s`: it activates LINK as `i` does (R24), the frames it sends or accepts are
valid, and, unless `i` reads the flags by R183, it is also what `i` does from `s` with other flags. -/
structure IsEffectOf {a : Agent} (i : Instr) (s : State) (e : Effect a) : Prop where
  exec_eq : exec i s = .next (e.on s)
  activates_eq : e.activates = movesLink i
  framesValid : e.FramesValid
  exec_withFlags : i ≠ .rdStat → ∀ l f, exec i (s.withFlags l f) = .next (e.on (s.withFlags l f))

/-! One lemma per kind of effect: when an operation has it. -/

theorem isEffectOf_answer {i : Instr} {s : State} {F : Frame} {data : Word} (moves : movesLink i = false)
    (h : exec i s = .next (State.respond { s with out := F } .ok data))
    (hflags : i ≠ .rdStat → ∀ l f,
      exec i (s.withFlags l f) = .next (State.respond { s.withFlags l f with out := F } .ok data)) :
    IsEffectOf i s (.answer F data) :=
  ⟨h, moves.symm, trivial, hflags⟩

theorem isEffectOf_reject {i : Instr} (e : Status) (info : Word) (he : e ∈ hostErrors) (moves : movesLink i = false)
    (h : ∀ u, exec i u = .next (u.raise .host e info)) (s : State) : IsEffectOf i s (.reject e info he) :=
  ⟨h s, moves.symm, trivial, fun _ _ _ => h _⟩

theorem isEffectOf_drop {i : Instr} (e : Status) (he : e ∈ rxErrors) (moves : movesLink i = false)
    (h : ∀ u, exec i u = .next (u.raise .rx e 0)) (s : State) : IsEffectOf i s (.drop e he) :=
  ⟨h s, moves.symm, trivial, fun _ _ _ => h _⟩

theorem isEffectOf_accept {i : Instr} {F : Frame} (valid : validate F = true) (moves : movesLink i = true)
    (h : ∀ u, exec i u = .next (u.receive F)) (s : State) :
    IsEffectOf i s (.accept F (seqGt (Frame.word F offSeq) (Frame.word s.out offSeq))) :=
  ⟨h s, moves.symm, valid, fun _ _ _ => h _⟩

/-- R170: SEND transmits a finalized frame. -/
theorem isEffectOf_send (s : State) :
    IsEffectOf .send s (.transmit (sendFrame s.out s.inb)
      (nextSequence (Frame.word s.out offSeq) (Frame.word s.inb offSeq))) :=
  ⟨rfl, rfl, validate_finalizeFrame _, fun _ _ _ => rfl⟩

/-- R175: the three ways a datagram can end. -/
theorem exists_isEffectOf_rxDatagram (bytes : Datagram) (s : State) :
    ∃ (a : Agent) (e : Effect a), IsEffectOf (.rxDatagram bytes) s e := by
  rcases decodeDatagram_cases bytes with ⟨-, hd⟩ | ⟨-, -, hd⟩ | ⟨-, valid, hd⟩
  · exact ⟨_, _, isEffectOf_drop .lengthMismatch (by decide) (by simp [movesLink, hd])
      (fun u => by simp only [exec, execRxDatagram, hd]) s⟩
  · exact ⟨_, _, isEffectOf_drop .checksumError (by decide) (by simp [movesLink, hd])
      (fun u => by simp only [exec, execRxDatagram, hd]) s⟩
  · exact ⟨_, _, isEffectOf_accept valid (by simp [movesLink, hd])
      (fun u => by simp only [exec, execRxDatagram, hd]) s⟩

/-- Every operation has such an effect: a command with an index (R73) answers or rejects, SEND transmits, every other
command answers. -/
theorem exists_isEffectOf (i : Instr) (s : State) : ∃ (a : Agent) (e : Effect a), IsEffectOf i s e := by
  cases i with
  | setMotion idx sub1 sub2 value =>
    cases h : checkIndex 30 idx with
    | none =>
      exact ⟨_, _, isEffectOf_reject .indexOutOfRange (zext16 idx) (by decide) rfl
        (fun u => by simp only [exec, execSetMotion, h]) s⟩
    | some e =>
      exact ⟨_, _, isEffectOf_answer rfl (by simp only [exec, execSetMotion, h]; rfl)
        fun _ _ _ => by simp only [exec, execSetMotion, h]; rfl⟩
  | setUser idx value =>
    cases h : checkIndex 8 idx with
    | none =>
      exact ⟨_, _, isEffectOf_reject .userDataIndexInvalid (zext16 idx) (by decide) rfl
        (fun u => by simp only [exec, execSetUser, h]) s⟩
    | some j =>
      exact ⟨_, _, isEffectOf_answer rfl (by simp only [exec, execSetUser, h]; rfl)
        fun _ _ _ => by simp only [exec, execSetUser, h]; rfl⟩
  | rdOut idx =>
    cases h : checkIndex 90 idx with
    | none =>
      exact ⟨_, _, isEffectOf_reject .badOffset (zext16 idx) (by decide) rfl
        (fun u => by simp only [exec, execRdOut, h]) s⟩
    | some j =>
      exact ⟨_, _, isEffectOf_answer rfl (by simp only [exec, execRdOut, h]; rfl)
        fun _ _ _ => by simp only [exec, execRdOut, h]; rfl⟩
  | rdIn idx =>
    cases h : checkIndex 90 idx with
    | none =>
      exact ⟨_, _, isEffectOf_reject .badOffset (zext16 idx) (by decide) rfl
        (fun u => by simp only [exec, execRdIn, h]) s⟩
    | some j =>
      exact ⟨_, _, isEffectOf_answer rfl (by simp only [exec, execRdIn, h]; rfl)
        fun _ _ _ => by simp only [exec, execRdIn, h]; rfl⟩
  | send => exact ⟨_, _, isEffectOf_send s⟩
  | rxDatagram bytes => exact exists_isEffectOf_rxDatagram bytes s
  | rdStat => exact ⟨_, _, isEffectOf_answer rfl rfl fun h => absurd rfl h⟩
  | _ => exact ⟨_, _, isEffectOf_answer rfl rfl fun _ _ _ => rfl⟩

/-- A transaction, that of an illegal command word included (R82), sends or accepts valid frames only. -/
theorem runInput_validEffect (p : PortInput) (s : State) :
    ∃ (a : Agent) (e : Effect a), e.FramesValid ∧ runInput p s = .next (e.on s) := by
  unfold runInput
  cases decode p with
  | ok i =>
    obtain ⟨a, e, he⟩ := exists_isEffectOf i s
    exact ⟨a, e, he.framesValid, he.exec_eq⟩
  | error err =>
    obtain ⟨op⟩ := err
    have he : Status.illegalCommand ∈ hostErrors := by decide
    exact ⟨.host, .reject .illegalCommand (zext16 op) he, trivial, rfl⟩

/-- A step waits, or has an effect that sends or accepts valid frames only, on a state that differs in the inputs
taken. -/
theorem step_validEffect {s t : State} (h : step s = .next t) :
    t = s ∨ ∃ (a : Agent) (e : Effect a) (cs : List CommandWord) (ds : List Datagram) (n : Nat),
      e.FramesValid ∧ t = e.on { s with cmds := cs, dgrams := ds, draws := n } := by
  have transaction {p u} (h : runInput p u = .next t) : ∃ (a : Agent) (e : Effect a), e.FramesValid ∧ t = e.on u := by
    obtain ⟨a, e, valid, he⟩ := runInput_validEffect p u
    exact ⟨a, e, valid, Host.Outcome.next.inj (h.symm.trans he)⟩
  rcases step_cases h with ⟨-, -, ht⟩ | ⟨w, ws, n, -, hw⟩ | ⟨d, ds, n, -, hr⟩
  · exact .inl ht
  · obtain ⟨a, e, he⟩ := transaction hw
    exact .inr ⟨a, e, _, _, _, he⟩
  · obtain ⟨a, e, he⟩ := transaction hr
    exact .inr ⟨a, e, _, _, _, he⟩

/-- What every such effect keeps, and the inputs do not matter to, every step keeps. -/
theorem step_keeps {P : State → Prop} (inputs : ∀ {s} cs ds n, P s → P { s with cmds := cs, dgrams := ds, draws := n })
    (effects : ∀ {a} {e : Effect a} {s}, e.FramesValid → P s → P (e.on s)) {s t : State} (hs : P s)
    (h : step s = .next t) : P t := by
  rcases step_validEffect h with rfl | ⟨a, e, cs, ds, n, valid, rfl⟩
  · exact hs
  · exact effects valid (inputs cs ds n hs)

end Sys2Proof.Machine
end

section
/-! The statements about the state (spec/10_state.md): the invariants of IN and TXH, and the two flags. -/

namespace Sys2Proof.Machine

/-- Settles O52: an effect leaves IN or replaces it by a valid frame, and a valid frame's word 89 is its checksum. -/
theorem inboundStaysValid : Obligations.InboundStaysValid := by
  intro s t hs h
  have valid : InboundValid t := step_keeps (fun _ _ _ hs => hs) Effect.on_inboundValid hs h
  exact ⟨valid, ((validate_iff t.inb).mp valid).symm⟩

/-- Settles O53: an effect appends to TXH, and only the datagrams of valid frames. -/
theorem sentDatagramsStayAcceptable : Obligations.SentDatagramsStayAcceptable := by
  intro s t hs h
  refine ⟨step_keeps (fun _ _ _ hs => hs) Effect.on_sentValid hs h, ?_⟩
  exact step_keeps (P := fun u => ∃ x, u.txh = s.txh ++ x) (fun _ _ _ hs => hs)
    (fun {_ e _} _ ⟨x, hx⟩ => ⟨x ++ e.sent, by simp [hx]⟩) ⟨[], by simp⟩ h

/-- Settles O48: an effect sets FAULT by the hard statuses of the responses it gives. -/
theorem faultIsStickyAndExact : Obligations.FaultIsStickyAndExact := by
  intro i s t h
  obtain ⟨a, e, he⟩ := exists_isEffectOf i s
  cases he.exec_eq.symm.trans h
  simp

/-- Settles O49: the effect of an operation activates LINK exactly when the operation moves it. -/
theorem linkMovesOnlyBySendOrAcceptance : Obligations.LinkMovesOnlyBySendOrAcceptance := by
  intro i s t h
  obtain ⟨a, e, he⟩ := exists_isEffectOf i s
  cases he.exec_eq.symm.trans h
  rw [e.on_link, he.activates_eq]

/-- Settles O50: but for RD_STAT, which only answers, the operation has the same effect under other flags. -/
theorem flagsGateNothing : Obligations.FlagsGateNothing := by
  intro i s l f
  by_cases hi : i = .rdStat
  · subst hi
    exact ⟨_, _, rfl, rfl, fun h => absurd rfl h, rfl⟩
  · obtain ⟨a, e, he⟩ := exists_isEffectOf i s
    have same := e.on_withFlags s l f
    exact ⟨_, _, he.exec_eq, he.exec_withFlags hi l f, fun _ => same,
      congrArg (fun u => { u with rsps := (e.on s).rsps }) same⟩

/-- Settles O54: an effect changes each flag as it adds to the records. -/
theorem flagsStayExactRecords : Obligations.FlagsStayExactRecords := fun _ _ h =>
  ⟨fun hs => step_keeps (fun _ _ _ hs => hs) (fun _ => Effect.on_faultExact _) hs h,
    fun hs => step_keeps (fun _ _ _ hs => hs) (fun _ => Effect.on_linkExact _) hs h⟩

/-- Settles O55: the zero frame is valid, and nothing has been sent or answered. -/
theorem resetStateMeetsInvariants : Obligations.ResetStateMeetsInvariants :=
  ⟨fun j => ⟨word_zeroFrame j, word_zeroFrame j⟩, rfl, rfl, rfl, validate_zeroFrame, nofun, rfl, rfl⟩

end Sys2Proof.Machine
end

section
/-! The statements about steps (spec/20_memory.md): which input a step takes, and the transaction it then is. -/

namespace Sys2Proof.Machine

/-! With one port alone ready, the step is the transaction of its oldest input (R44, R47). -/

/-- Log entry 3: with nothing ready the block waits. -/
theorem step_of_idle {s : State} (hc : s.cmds = []) (hd : s.dgrams = []) : step s = .next s := by
  simp [step, State.takeInput, hc, hd]

theorem step_of_command_only {s : State} {w : CommandWord} {ws : List CommandWord} (hc : s.cmds = w :: ws)
    (hd : s.dgrams = []) : step s = stepHost { s with cmds := ws } w := by
  simp [step, State.takeInput, hc, hd, stepHost]

theorem step_of_datagram_only {s : State} {d : Datagram} {ds : List Datagram} (hc : s.cmds = [])
    (hd : s.dgrams = d :: ds) : step s = stepRx { s with dgrams := ds } d := by
  simp [step, State.takeInput, hc, hd, stepRx]

/-! With both ports ready, the step is the transaction of the agent that the open order names (R48). -/

theorem step_of_contested_host {s : State} {w : CommandWord} {ws : List CommandWord} {d : Datagram}
    {ds : List Datagram} (hc : s.cmds = w :: ws) (hd : s.dgrams = d :: ds) (order : Config.arbOrder s.draws = .host) :
    step s = stepHost { s with cmds := ws, draws := s.draws + 1 } w := by
  simp [step, State.takeInput, hc, hd, order, stepHost]

theorem step_of_contested_rx {s : State} {w : CommandWord} {ws : List CommandWord} {d : Datagram}
    {ds : List Datagram} (hc : s.cmds = w :: ws) (hd : s.dgrams = d :: ds) (order : Config.arbOrder s.draws = .rx) :
    step s = stepRx { s with dgrams := ds, draws := s.draws + 1 } d := by
  simp [step, State.takeInput, hc, hd, order, stepRx]

/-- R82, R195: an illegal command sets FAULT and answers its opcode, and changes nothing else. -/
theorem State.illegalCommand_eq (s : State) (op : Byte) :
    s.illegalCommand op =
      { s with fault := true, rsps := s.rsps ++ [⟨.illegalCommand, op.setWidth 16⟩] } := by
  simp [State.illegalCommand, State.raise_host_eq, isHardError, zext16]

/-- Settles O6: the port that alone is ready gives the step its oldest input, and a command word is then the operation
it decodes to or an illegal command. -/
theorem stepRunsDecodedOperation : Obligations.StepRunsDecodedOperation := by
  refine ⟨fun s w ws hc hd => ?_, fun s d ds hc hd => ?_, fun s => step_of_idle⟩
  · have taken := step_of_command_only hc hd
    refine ⟨taken, fun i legal => ?_, fun op illegal => ?_⟩
    · exact taken.trans (stepHost_of_decodes legal _)
    · rw [taken, stepHost_of_illegal illegal, State.illegalCommand_eq]
  · have taken := step_of_datagram_only hc hd
    exact ⟨taken, taken.trans rfl⟩

/-- Settles O7: whichever agent the open order names, the step is the whole transaction of that agent's oldest input. -/
theorem contestedStepIsOneWholeOperation : Obligations.ContestedStepIsOneWholeOperation := by
  intro s w ws d ds hc hd
  cases order : Config.arbOrder s.draws with
  | host => exact .inl (step_of_contested_host hc hd order)
  | rx => exact .inr (step_of_contested_rx hc hd order)

end Sys2Proof.Machine
end

section
/-! The decoder and the encoder as inverses (spec/30_encoding.md R75, R76, R80 to R83): decoding undoes encoding, and
encoding what a legal word decodes to gives that word with its unused fields cleared. -/

namespace Sys2Proof.Machine

/-- R75, R80, R81: the decoder reads back what the encoder wrote, opcode by opcode. -/
theorem decode_encode (i : Instr) : decode (encode i) = .ok i := by
  cases i with
  | rxDatagram bytes => rfl
  | _ =>
    simp [encode, decode, decodeCommand, opField_mkCommand, idxField_mkCommand, aField_mkCommand, bField_mkCommand,
      cField_mkCommand]

theorem decodeCommand_of_encode {i : Instr} {w : CommandWord} (h : encode i = .command w) :
    decodeCommand w = .ok i := by
  have hi := decode_encode i
  rwa [h] at hi

/-- R206: an operation is presented on the port of its agent. -/
theorem portAgent_encode (i : Instr) : portAgent (encode i) = i.agent := by cases i <;> rfl

/-- R75: a command word is its five fields. -/
theorem mkCommand_fields (w : CommandWord) :
    mkCommand (opField w) (idxField w) (aField w) (bField w) (cField w) = w := by
  apply BitVec.eq_of_getLsbD_eq
  intro i hi
  rw [getLsbD_mkCommand]
  simp only [opField, idxField, aField, bField, cField, BitVec.getLsbD_extractLsb']
  split_ifs with hc hb ha hidx
  · simp [hc]
  · simp [show i - 16 < 16 by omega, show 16 + (i - 16) = i by omega]
  · simp [show i - 32 < 16 by omega, show 32 + (i - 32) = i by omega]
  · simp [show i - 48 < 8 by omega, show 48 + (i - 48) = i by omega]
  · simp [show i - 56 < 8 by omega, show 56 + (i - 56) = i by omega]

/-! A field wholly inside a mask stays as it is. -/

theorem and_byteMask (x : Byte) : x &&& 255#8 = x := BitVec.and_allOnes
theorem and_wordMask (x : Word) : x &&& 65535#16 = x := BitVec.and_allOnes

theorem opField_eq_ofNat {w : CommandWord} {n : Nat} (h : (opField w).toNat = n) : opField w = BitVec.ofNat 8 n := by
  rw [← h, BitVec.ofNat_toNat, BitVec.setWidth_eq]

/-- Masking a command word masks each of its fields. -/
theorem and_eq_mkCommand (w m : CommandWord) :
    w &&& m = mkCommand (opField w &&& opField m) (idxField w &&& idxField m) (aField w &&& aField m)
      (bField w &&& bField m) (cField w &&& cField m) := by
  rw [← opField_and, ← idxField_and, ← aField_and, ← bField_and, ← cField_and, mkCommand_fields]

/-- R72: the operation with bits 15:8 of its 8-bit operands cleared. -/
def narrowOperands : Instr → Instr
  | .setLstick h v => .setLstick (h &&& 0xFF) (v &&& 0xFF)
  | .setRstick h v => .setRstick (h &&& 0xFF) (v &&& 0xFF)
  | .setTrig x y => .setTrig (x &&& 0xFF) (y &&& 0xFF)
  | .setMcnt x y => .setMcnt (x &&& 0xFF) (y &&& 0xFF)
  | .setMotion idx sub1 sub2 value => .setMotion idx (sub1 &&& 0xFF) (sub2 &&& 0xFF) value
  | i => i

/-- R113: packing takes the low bytes of its operands. -/
theorem pack88_low (a b : Word) : pack88 (a &&& 0xFF) (b &&& 0xFF) = pack88 a b := by
  simp [pack88, lo8, BitVec.extractLsb'_and, and_byteMask]

/-- R72: the block does not depend on bits 15:8 of an 8-bit operand. -/
theorem exec_narrowOperands (i : Instr) (s : State) : exec (narrowOperands i) s = exec i s := by
  cases i with
  | setLstick h v => simp only [narrowOperands, exec, execSetLstick, pack88_low]
  | setRstick h v => simp only [narrowOperands, exec, execSetRstick, pack88_low]
  | setTrig x y => simp only [narrowOperands, exec, execSetTrig, pack88_low]
  | setMcnt x y => simp only [narrowOperands, exec, execSetMcnt, pack88_low]
  | setMotion idx sub1 sub2 value => simp only [narrowOperands, exec, execSetMotion, pack88_low]
  | _ => rfl

/-- R76, R83, R72: what a legal word decodes to is presented as the word's used bits, and with its 8-bit operands
narrowed as the word's effective bits. -/
theorem encode_of_decodeCommand {w : CommandWord} {i : Instr} (h : decodeCommand w = .ok i) :
    encode i = .command (w &&& usedBits (opField w)) ∧
    encode (narrowOperands i) = .command (w &&& effectiveBits (opField w)) := by
  unfold decodeCommand at h
  split at h
  case h_27 => cases h
  all_goals
    cases h
    rename_i hop
    simp only [narrowOperands, encode, and_eq_mkCommand, usedBits, effectiveBits, opField_eq_ofNat hop]
    simp [opField, idxField, aField, bField, cField, and_byteMask, and_wordMask]

/-! R82: the opcodes without a command, and the only refusal of the decoder. -/

theorem decodeCommand_of_illegal {w : CommandWord} (h : (opField w).toNat = 0 ∨ 0x1B ≤ (opField w).toNat) :
    decodeCommand w = .error (.illegalCommand (opField w)) := by
  unfold decodeCommand
  split
  case h_27 => rfl
  all_goals omega

theorem illegal_of_decodeCommand_error {w : CommandWord} {e : DecodeError} (h : decodeCommand w = .error e) :
    (opField w).toNat = 0 ∨ 0x1B ≤ (opField w).toNat := by
  unfold decodeCommand at h
  split at h
  case h_27 =>
    simp only [imp_false] at *
    omega
  all_goals cases h

/-- Every opcode uses its `OP` field whole. -/
theorem opField_and_usedBits (w : CommandWord) (op : Byte) : opField (w &&& usedBits op) = opField w := by
  have whole : opField (usedBits op) = 0xFF := by
    unfold usedBits
    split <;> rfl
  rw [opField_and, whole]
  exact and_byteMask _

theorem opField_and_effectiveBits (w : CommandWord) (op : Byte) :
    opField (w &&& effectiveBits op) = opField w := by
  unfold effectiveBits
  split
  case h_6 => exact opField_and_usedBits w op
  all_goals
    rw [opField_and]
    exact and_byteMask _

/-- R82: whether a word is illegal, and how it is refused, depends on its opcode alone. -/
theorem decodeCommand_error_congr {w v : CommandWord} {e : DecodeError} (h : decodeCommand w = .error e)
    (hv : opField v = opField w) : decodeCommand v = .error e := by
  have illegal := illegal_of_decodeCommand_error h
  rw [decodeCommand_of_illegal (hv ▸ illegal), hv, ← decodeCommand_of_illegal illegal, h]

/-- R83: a word decodes as its used bits do. -/
theorem decodeCommand_and_usedBits (w : CommandWord) :
    decodeCommand (w &&& usedBits (opField w)) = decodeCommand w := by
  cases h : decodeCommand w with
  | ok i => exact decodeCommand_of_encode (encode_of_decodeCommand h).1
  | error e => exact decodeCommand_error_congr h (opField_and_usedBits w _)

/-- R83, R72: a word acts as its effective bits do. -/
theorem stepHost_and_effectiveBits (s : State) (w : CommandWord) :
    stepHost s (w &&& effectiveBits (opField w)) = stepHost s w := by
  cases h : decodeCommand w with
  | ok i =>
    have narrowed := decodeCommand_of_encode (encode_of_decodeCommand h).2
    rw [stepHost_of_decodes narrowed, exec_narrowOperands, stepHost_of_decodes h]
  | error e =>
    obtain ⟨op⟩ := e
    have illegal := decodeCommand_error_congr h (opField_and_effectiveBits w (opField w))
    rw [stepHost_of_illegal illegal, stepHost_of_illegal h]

end Sys2Proof.Machine
end

section
/-! The button mask (spec/30_encoding.md R62, R74): the sum over pressed buttons is their OR, because no two buttons
share a bit. -/

namespace Sys2Proof.Machine

/-- The buttons in the order of R62. -/
def buttonOrder : List Button := (snapshotRows {}).map (·.1)

theorem snapshotRows_buttons (k : ButtonSnapshot) : (snapshotRows k).map (·.1) = buttonOrder := rfl

theorem snapshotRows_nodup (k : ButtonSnapshot) : ((snapshotRows k).map (·.1)).Nodup := by
  have distinct : buttonOrder.Nodup := by decide
  rwa [snapshotRows_buttons]

/-- R62: a button's bit is its place in the order. -/
theorem buttonOrder_getElem? (k : Button) : buttonOrder[buttonBit k]? = some k := by cases k <;> rfl

theorem buttonBit_lt (k : Button) : buttonBit k < 16 :=
  (List.getElem?_eq_some_iff.mp (buttonOrder_getElem? k)).1

theorem buttonBit_inj {j k : Button} : buttonBit j = buttonBit k ↔ j = k := by
  refine ⟨fun h => ?_, congrArg buttonBit⟩
  have hj := buttonOrder_getElem? j
  rw [h, buttonOrder_getElem?] at hj
  exact (Option.some.inj hj).symm

theorem buttonWord_cons (k : Button) (ks : List Button) :
    buttonWord (k :: ks) = buttonWord ks ||| BitVec.twoPow 16 (buttonBit k) := rfl

/-- R62: the bits of the word of a set of buttons are its members. -/
theorem buttonPressed_buttonWord (ks : List Button) (j : Button) :
    buttonPressed (buttonWord ks) j = decide (j ∈ ks) := by
  induction ks with
  | nil => simp [buttonPressed, buttonWord]
  | cons k ks ih =>
    rw [buttonPressed] at ih ⊢
    rw [buttonWord_cons, BitVec.getLsbD_or, ih, BitVec.getLsbD_twoPow]
    simp [buttonBit_lt, buttonBit_inj, eq_comm, Bool.or_comm]

/-- The sum of `btn_pack` over some rows. -/
def pressedSum (rows : List (Button × Bool)) : Nat := (rows.map fun r => if r.2 then 2 ^ buttonBit r.1 else 0).sum

/-- The pressed buttons of some rows. -/
def pressedButtons (rows : List (Button × Bool)) : List Button := (rows.filter (·.2)).map (·.1)

theorem btnPack_eq (k : ButtonSnapshot) : btnPack k = BitVec.ofNat 16 (pressedSum (snapshotRows k)) := rfl

theorem ofNat_two_pow (n : Nat) : BitVec.ofNat 16 (2 ^ n) = BitVec.twoPow 16 n :=
  BitVec.eq_of_toNat_eq (by rw [BitVec.toNat_ofNat, BitVec.toNat_twoPow])

/-- Adding a button that is not in the set is OR with its value: the two words share no bit. -/
theorem twoPow_add_buttonWord {k : Button} {ks : List Button} (h : k ∉ ks) :
    BitVec.twoPow 16 (buttonBit k) + buttonWord ks = buttonWord (k :: ks) := by
  have clear : (buttonWord ks).getLsbD (buttonBit k) = false := by
    simpa [buttonPressed, h] using buttonPressed_buttonWord ks k
  have disjoint : buttonWord ks &&& BitVec.twoPow 16 (buttonBit k) = 0#16 := by
    simp [BitVec.and_twoPow, clear]
  rw [buttonWord_cons, BitVec.add_comm, BitVec.add_eq_or_of_and_eq_zero _ _ disjoint]

/-- R62, R74: over rows of distinct buttons the sum is the OR. -/
theorem ofNat_pressedSum {rows : List (Button × Bool)} (h : (rows.map (·.1)).Nodup) :
    BitVec.ofNat 16 (pressedSum rows) = buttonWord (pressedButtons rows) := by
  induction rows with
  | nil => rfl
  | cons r rows ih =>
    obtain ⟨k, b⟩ := r
    obtain ⟨fresh, hrows⟩ := List.nodup_cons.mp h
    cases b with
    | false => simpa [pressedSum, pressedButtons] using ih hrows
    | true =>
      have notPressed : k ∉ pressedButtons rows :=
        fun hk => fresh (List.map_subset _ (List.filter_sublist (l := rows)).subset hk)
      calc BitVec.ofNat 16 (pressedSum ((k, true) :: rows))
          = BitVec.twoPow 16 (buttonBit k) + BitVec.ofNat 16 (pressedSum rows) := by
            simp only [pressedSum, List.map_cons, List.sum_cons, if_true, BitVec.ofNat_add, ofNat_two_pow]
        _ = buttonWord (k :: pressedButtons rows) := by rw [ih hrows, twoPow_add_buttonWord notPressed]

/-- Over rows of distinct buttons, a row's button is pressed exactly when the row says so. -/
theorem mem_pressedButtons {rows : List (Button × Bool)} (h : (rows.map (·.1)).Nodup) {r : Button × Bool}
    (hr : r ∈ rows) : r.1 ∈ pressedButtons rows ↔ r.2 = true := by
  refine ⟨fun hp => ?_, fun hpressed => List.mem_map_of_mem (List.mem_filter.mpr ⟨hr, hpressed⟩)⟩
  obtain ⟨q, hq, hbutton⟩ := List.mem_map.mp hp
  obtain ⟨hqrows, hqpressed⟩ := List.mem_filter.mp hq
  obtain rfl := List.inj_on_of_nodup_map h hqrows hr hbutton
  exact hqpressed

/-- R62, R74: `btn_pack` is the OR of the values of the pressed buttons. -/
theorem btnPack_eq_buttonWord (k : ButtonSnapshot) : btnPack k = buttonWord (pressedButtons (snapshotRows k)) := by
  rw [btnPack_eq, ofNat_pressedSum (snapshotRows_nodup k)]

end Sys2Proof.Machine
end

section
/-! What the assembler makes of operands (R86), and the three commands of PEEK_NEXTSEQ (R88). -/

namespace Sys2Proof.Machine

/-! R86: the operands of the assembler, in range and out of it. -/

theorem asmOperand_of_inRange {v : Int} (hlo : -32768 ≤ v) (hhi : v ≤ 65535) :
    asmOperand v = some (BitVec.ofInt 16 v) := by
  simp [asmOperand, operandInRange, hlo, hhi, w16]

theorem asmOperand_of_outOfRange {v : Int} (h : v < -32768 ∨ 65535 < v) : asmOperand v = none := by
  simp only [asmOperand, operandInRange, ite_eq_right_iff, Bool.and_eq_true, decide_eq_true_iff]
  omega

theorem asmIndex_of_inRange {n : Nat} (h : n ≤ 255) : asmIndex n = some (BitVec.ofNat 8 n) := by
  have hn : (n : Int) ≤ 255 := by omega
  simp [asmIndex, indexInRange, hn, b8]

theorem asmIndex_of_outOfRange {v : Int} (h : v < 0 ∨ 255 < v) : asmIndex v = none := by
  simp only [asmIndex, indexInRange, ite_eq_right_iff, Bool.and_eq_true, decide_eq_true_iff]
  omega

/-! R180, R181: a read of an offset that exists answers its word. -/

theorem exec_rdOut_of_lt {idx : Byte} (h : idx.toNat < 90) (s : State) :
    exec (.rdOut idx) s = s.finish (Frame.word s.out ⟨idx.toNat, h⟩) := by
  simp only [exec, execRdOut, checkIndex_lt h]

theorem exec_rdIn_of_lt {idx : Byte} (h : idx.toNat < 90) (s : State) :
    exec (.rdIn idx) s = s.finish (Frame.word s.inb ⟨idx.toNat, h⟩) := by
  simp only [exec, execRdIn, checkIndex_lt h]

theorem execAll_cons {i : Instr} {is : List Instr} {s t : State} (h : exec i s = .next t) :
    execAll (i :: is) s = execAll is t := by
  simp only [execAll, h]

/-- R88: the three commands of PEEK_NEXTSEQ, given the two words it reads, answer these and their next number. -/
theorem execAll_peekNextSeq (s : State) :
    execAll (expandPseudo (Frame.word s.out 1) (Frame.word s.inb 1) .peekNextSeq) s =
      .next (((s.respond .ok (Frame.word s.out 1)).respond .ok (Frame.word s.inb 1)).respond .ok
        (nextSequence (Frame.word s.out 1) (Frame.word s.inb 1))) := by
  have rdOut (u : State) : exec (.rdOut 1) u = .next (u.respond .ok (Frame.word u.out 1)) :=
    exec_rdOut_of_lt (by decide) u
  have rdIn (u : State) : exec (.rdIn 1) u = .next (u.respond .ok (Frame.word u.inb 1)) :=
    exec_rdIn_of_lt (by decide) u
  rw [expandPseudo, execAll_cons (rdOut s), execAll_cons (rdIn _), execAll_cons rfl]
  rfl

end Sys2Proof.Machine
end

section
/-! The statements about the encoding (spec/30_encoding.md). -/

namespace Sys2Proof.Machine

/-- Settles O1: the decoder reads back each operation on the port of its agent. -/
theorem decodeOfEncodeIsIdentity : Obligations.DecodeOfEncodeIsIdentity := fun i =>
  ⟨decode_encode i, by rw [portAgent_encode, WellFormed, beq_self_eq_true]⟩

/-- Settles O2: a legal word with its unused fields cleared is what is presented for its operation. -/
theorem unusedFieldsIgnored : Obligations.UnusedFieldsIgnored := by
  refine fun w => ⟨(decodeCommand_and_usedBits w).symm, fun s => (stepHost_and_effectiveBits s w).symm,
    fun i h => ?_, fun i h => ?_⟩
  · rw [WellFormed, agent_of_decodeCommand h, beq_self_eq_true]
  · have masked := (encode_of_decodeCommand (decodeCommand_of_encode h)).1
    exact PortInput.command.inj (masked.symm.trans h)

/-- Settles O19: the sum of the pressed buttons is their OR, whose bits are the pressed buttons. -/
theorem buttonPackIsBitPerButton : Obligations.ButtonPackIsBitPerButton := by
  refine fun k => ⟨fun r hr => ?_, btnPack_eq_buttonWord k⟩
  rw [btnPack_eq_buttonWord, buttonPressed_buttonWord, Bool.eq_iff_iff, decide_eq_true_iff]
  exact mem_pressedButtons (snapshotRows_nodup k) hr

/-- Settles O3: the decoder refuses exactly the illegal opcodes, and their effect is that of `raise`. -/
theorem illegalCommandEffect : Obligations.IllegalCommandEffect := by
  refine ⟨fun w s illegal => ?_, fun w hlo hhi => ?_, by rfl, by decide⟩
  · rw [stepHost_of_illegal (decodeCommand_of_illegal illegal), State.illegalCommand_eq]
  · cases h : decodeCommand w with
    | ok i => exact ⟨i, rfl⟩
    | error e =>
      have illegal := illegal_of_decodeCommand_error h
      omega

/-- Settles O4: each word is what is presented for its command. -/
theorem sampleWordsDecode : Obligations.SampleWordsDecode :=
  ⟨decodeCommand_of_encode rfl, decodeCommand_of_encode rfl, decodeCommand_of_encode rfl,
    decodeCommand_of_encode rfl, decodeCommand_of_encode rfl, decodeCommand_of_encode rfl⟩

/-- Settles O5: the range tests of R86, and its example line, assembled. -/
theorem assemblerOperandRanges : Obligations.AssemblerOperandRanges :=
  ⟨fun _ => asmOperand_of_inRange, fun _ => asmOperand_of_outOfRange, fun _ => asmIndex_of_inRange,
    fun _ => asmIndex_of_outOfRange, by decide⟩

/-- Settles O20: the rows of R60 tile the 90 offsets. -/
theorem layoutAssignsEachOffsetOnce : Obligations.LayoutAssignsEachOffsetOnce := by
  unfold Obligations.LayoutAssignsEachOffsetOnce
  decide

/-- Settles O43: SEQ_NEXT of the two words read computes the number that SEND computes of them. -/
theorem peekNextSeqForetellsSend : Obligations.PeekNextSeqForetellsSend := fun s =>
  ⟨_, _, _, execAll_peekNextSeq s, by simp [offSeq], (isEffectOf_send s).exec_eq, Effect.on_rsps _ s⟩

end Sys2Proof.Machine
end

section
/-! The reading and packing of integers (R9, R113, R117): a packed word as an integer, and the sign extensions as the
signed values of bit vectors. -/

namespace Sys2Proof.Machine

/-- R113: packing, by the arithmetic of R9. -/
theorem pack88_eq_ofNat (a b : Word) : pack88 a b = BitVec.ofNat 16 (a.toNat % 256 * 256 + b.toNat % 256) := by
  rw [← pack88_toNat, BitVec.ofNat_toNat, BitVec.setWidth_eq]

/-- R9: masking to a byte is masking to a word and taking its low byte. -/
theorem lo8_w16 (v : Int) : lo8 (w16 v) = b8 v := by
  apply BitVec.eq_of_toNat_eq
  simp only [lo8, w16, b8, BitVec.extractLsb'_toNat, BitVec.toNat_ofInt, Nat.shiftRight_zero]
  omega

theorem pack88_w16 (x y : Int) : pack88 (w16 x) (w16 y) = pack88Int x y := by
  rw [pack88, lo8_w16, lo8_w16, pack88Int]

theorem w16_toNat_mod (v : Int) : (((w16 v).toNat % 256 : Nat) : Int) = v % 256 := by
  simp only [w16, BitVec.toNat_ofInt]
  omega

theorem sext16_eq_toInt (w : Word) : sext16 w = w.toInt := by
  simp only [sext16, BitVec.toInt]
  split_ifs <;> omega

theorem sext8_eq_toInt (b : Byte) : sext8 b = b.toInt := by
  simp only [sext8, BitVec.toInt]
  split_ifs <;> omega

theorem sext16_w16 {v : Int} (hlo : -32768 ≤ v) (hhi : v ≤ 32767) : sext16 (w16 v) = v := by
  rw [sext16_eq_toInt]
  exact BitVec.toInt_ofInt_eq_self (by decide) hlo (by omega)

theorem sext8_b8 {v : Int} (hlo : -128 ≤ v) (hhi : v ≤ 127) : sext8 (b8 v) = v := by
  rw [sext8_eq_toInt]
  exact BitVec.toInt_ofInt_eq_self (by decide) hlo (by omega)

end Sys2Proof.Machine
end

section
/-! What a setter does, said once for all 14 (R100 to R116): it stores the words that its operands determine, or
rejects its index. -/

namespace Sys2Proof.Machine

/-- One word stored at offset `o`. -/
def storeOne (o : Nat) (w : Word) (j : Nat) : Option Word := if j = o then some w else none

/-- R61: three words stored at `o`, `o + 1`, `o + 2`. -/
def storeThree (o : Nat) (x y z : Word) (j : Nat) : Option Word :=
  if j = o then some x else if j = o + 1 then some y else if j = o + 2 then some z else none

/-- What a setter stores, by word offset, when its index is in range; nothing for other operations. -/
def setterStores : Instr → Nat → Option Word
  | .setMcmd code => storeOne 0 code
  | .setSeq seq => storeOne 1 seq
  | .setAcc x y z => storeThree 2 x y z
  | .setGyro x y z => storeThree 5 x y z
  | .setMag x y z => storeThree 8 x y z
  | .setTemp t => storeOne 11 t
  | .setOri roll pitch yaw => storeThree 12 roll pitch yaw
  | .setBtn buttons => storeOne 15 buttons
  | .setLstick horizontal vertical => storeOne 16 (pack88 horizontal vertical)
  | .setRstick horizontal vertical => storeOne 17 (pack88 horizontal vertical)
  | .setTrig first second => storeOne 18 (pack88 first second)
  | .setMcnt first second => storeOne 19 (pack88 first second)
  | .setMotion idx sub1 sub2 value => fun j =>
    if j = 20 + 2 * idx.toNat then some (pack88 sub1 sub2) else storeOne (21 + 2 * idx.toNat) value j
  | .setUser idx value => storeOne (80 + idx.toNat) value
  | _ => fun _ => none

theorem storeOne_of_ne {o j : Nat} (w : Word) (h : j ≠ o) : storeOne o w j = none := if_neg h

/-- An operation that writes words completes in a state that differs in OUT and the record of responses alone. -/
theorem WritesWords.exists_out {i : Instr} {new : Nat → Option Word} (h : WritesWords i new) (s : State) :
    ∃ F, exec i s = .next (State.respond { s with out := F } .ok 0) ∧
      ∀ j, Frame.word F j = (new j.val).getD (Frame.word s.out j) := by
  obtain ⟨t, ht, frame, words⟩ := h s
  exact ⟨t.out, ht.trans (congrArg Host.Outcome.next frame), words⟩

/-! One rule per way of storing. -/

theorem writesWords_writeOut {i : Instr} (o : Offset) (w : Word)
    (h : ∀ s, exec i s = (s.writeOut o w).finish 0) : WritesWords i (storeOne o.val w) := by
  refine fun s => ⟨_, h s, rfl, fun j => ?_⟩
  simp only [State.respond_out, State.writeOut_out, Frame.word_put, storeOne, Fin.ext_iff, eq_comm (a := o.val)]
  split_ifs <;> rfl

theorem writesWords_writeOut3 {i : Instr} (o : Fin 88) (x y z : Word)
    (h : ∀ s, exec i s = (s.writeOut3 o x y z).finish 0) : WritesWords i (storeThree o.val x y z) := by
  refine fun s => ⟨_, h s, rfl, fun j => ?_⟩
  simp only [State.respond_out, State.writeOut3_out, Frame.word_put3, storeThree]
  split_ifs <;> rfl

theorem writesWords_setMotion {idx : Byte} (h : idx.toNat < 30) (sub1 sub2 value : Word) :
    WritesWords (.setMotion idx sub1 sub2 value) (setterStores (.setMotion idx sub1 sub2 value)) := by
  refine fun s => ⟨_, by simp only [exec, execSetMotion, checkIndex_lt h]; rfl, rfl, fun j => ?_⟩
  simp only [State.respond_out, State.writeOut_out, Frame.word_put, setterStores, storeOne, Fin.ext_iff,
    motionOffA_val, motionOffB_val, eq_comm (b := j.val)]
  split_ifs
  · omega
  all_goals rfl

theorem writesWords_setUser {idx : Byte} (h : idx.toNat < 8) (value : Word) :
    WritesWords (.setUser idx value) (storeOne (80 + idx.toNat) value) :=
  writesWords_writeOut (userOff ⟨idx.toNat, h⟩) value fun s => by simp only [exec, execSetUser, checkIndex_lt h]

/-! The index tests of R73 on the two setters that have an index. -/

theorem indexError_setMotion_eq_none {idx : Byte} {sub1 sub2 value : Word} :
    indexError (.setMotion idx sub1 sub2 value) = none ↔ idx.toNat < 30 := by simp [indexError]

theorem indexError_setUser_eq_none {idx : Byte} {value : Word} :
    indexError (.setUser idx value) = none ↔ idx.toNat < 8 := by simp [indexError]

/-- R116 (d): a setter whose index, if it has one, is in range stores its words. -/
theorem setter_writesWords {i : Instr} (setter : isSetter i = true) (inRange : indexError i = none) :
    WritesWords i (setterStores i) := by
  cases i with
  | setMcmd code => exact writesWords_writeOut offMcmd code fun _ => rfl
  | setSeq seq => exact writesWords_writeOut offSeq seq fun _ => rfl
  | setAcc x y z => exact writesWords_writeOut3 offAcc x y z fun _ => rfl
  | setGyro x y z => exact writesWords_writeOut3 offGyro x y z fun _ => rfl
  | setMag x y z => exact writesWords_writeOut3 offMag x y z fun _ => rfl
  | setTemp t => exact writesWords_writeOut offTemp t fun _ => rfl
  | setOri roll pitch yaw => exact writesWords_writeOut3 offOri roll pitch yaw fun _ => rfl
  | setBtn buttons => exact writesWords_writeOut offBtn buttons fun _ => rfl
  | setLstick h v => exact writesWords_writeOut offLstick (pack88 h v) fun _ => rfl
  | setRstick h v => exact writesWords_writeOut offRstick (pack88 h v) fun _ => rfl
  | setTrig x y => exact writesWords_writeOut offTrig (pack88 x y) fun _ => rfl
  | setMcnt x y => exact writesWords_writeOut offMcnt (pack88 x y) fun _ => rfl
  | setMotion idx sub1 sub2 value =>
    exact writesWords_setMotion (indexError_setMotion_eq_none.mp inRange) sub1 sub2 value
  | setUser idx value => exact writesWords_setUser (indexError_setUser_eq_none.mp inRange) value
  | _ => cases setter

/-- R118: the error word and the checksum word are stored by no setter. -/
theorem setterStores_errorWord_checksumWord {i : Instr} (inRange : indexError i = none) :
    setterStores i 88 = none ∧ setterStores i 89 = none := by
  cases i with
  | setMotion idx sub1 sub2 value =>
    have hidx := indexError_setMotion_eq_none.mp inRange
    have kept {j : Nat} (hj : 88 ≤ j) : setterStores (.setMotion idx sub1 sub2 value) j = none :=
      (if_neg (by omega)).trans (storeOne_of_ne _ (by omega))
    exact ⟨kept (by decide), kept (by decide)⟩
  | setUser idx value =>
    have hidx := indexError_setUser_eq_none.mp inRange
    exact ⟨storeOne_of_ne _ (by omega), storeOne_of_ne _ (by omega)⟩
  | _ => exact ⟨rfl, rfl⟩

/-- R114: a motion index out of range is a hard error. -/
theorem rejects_setMotion {idx : Byte} (h : 30 ≤ idx.toNat) (sub1 sub2 value : Word) :
    Rejects (.setMotion idx sub1 sub2 value) .indexOutOfRange true (idx.setWidth 16) := fun s => by
  simp only [exec, execSetMotion, checkIndex_ge h]
  rfl

/-- R115: a user index out of range is a soft failure. -/
theorem rejects_setUser {idx : Byte} (h : 8 ≤ idx.toNat) (value : Word) :
    Rejects (.setUser idx value) .userDataIndexInvalid false (idx.setWidth 16) := fun s => by
  simp only [exec, execSetUser, checkIndex_ge h]
  rfl

/-- What a setter can do: store its words, or reject its index, which is a hard error for a motion index alone. -/
theorem setter_cases {i : Instr} (setter : isSetter i = true) :
    (indexError i = none ∧ WritesWords i (setterStores i)) ∨
    (∃ e hard info, indexError i = some (e, info) ∧ Rejects i e hard info ∧
      (hard = false ∨ hard = true ∧ ∃ idx a b c, i = .setMotion idx a b c ∧ 30 ≤ idx.toNat)) := by
  by_cases inRange : indexError i = none
  · exact .inl ⟨inRange, setter_writesWords setter inRange⟩
  · refine .inr ?_
    cases i with
    | setMotion idx a b c =>
      have hidx : ¬ idx.toNat < 30 := fun h => inRange (indexError_setMotion_eq_none.mpr h)
      have hge := Nat.not_lt.mp hidx
      exact ⟨_, _, _, if_neg hidx, rejects_setMotion hge a b c, .inr ⟨rfl, idx, a, b, c, rfl, hge⟩⟩
    | setUser idx value =>
      have hidx : ¬ idx.toNat < 8 := fun h => inRange (indexError_setUser_eq_none.mpr h)
      exact ⟨_, _, _, if_neg hidx, rejects_setUser (Nat.not_lt.mp hidx) value, .inl rfl⟩
    | rdOut idx => cases setter
    | rdIn idx => cases setter
    | _ => exact absurd rfl inRange

end Sys2Proof.Machine
end

section
/-! The statements about the payload packer (spec/40_pack.md). -/

namespace Sys2Proof.Machine

/-- Settles O16: a word is stored with the same value from both states, or kept from each; a rejection stores none. -/
theorem settersReadNothingAndTouchOnlyFields : Obligations.SettersReadNothingAndTouchOnlyFields := by
  intro i setter s s'
  rcases setter_cases setter with ⟨inRange, writes⟩ | ⟨e, hard, info, outOfRange, rejects, hhard⟩
  · obtain ⟨F, hs, words⟩ := writes.exists_out s
    obtain ⟨F', hs', words'⟩ := writes.exists_out s'
    obtain ⟨err, csum⟩ := setterStores_errorWord_checksumWord inRange
    have keeps {j : Offset} (h : setterStores i j.val = none) : Frame.word F j = Frame.word s.out j := by
      rw [words, h, Option.getD_none]
    refine ⟨_, _, hs, hs', rfl, rfl, rfl, rfl, keeps err, keeps csum, fun j => ?_, by simp [inRange], .inl rfl⟩
    simp only [State.respond_out, words, words']
    cases setterStores i j.val with
    | none => exact .inr ⟨rfl, rfl⟩
    | some w => exact .inl rfl
  · refine ⟨_, _, rejects s, rejects s', rfl, rfl, rfl, rfl, rfl, rfl, fun j => .inr ⟨rfl, rfl⟩,
      by simp [outOfRange], ?_⟩
    rcases hhard with rfl | ⟨rfl, idx, a, b, c, hi, hidx⟩
    · exact .inl (Bool.or_false _)
    · exact .inr ⟨idx, a, b, c, hi, hidx, Bool.or_true _⟩

/-- Settles O11: the four commands as rows of `setterStores`. -/
theorem singleWordSettersStoreOperand : Obligations.SingleWordSettersStoreOperand := by
  refine ⟨⟨?_, ?_, ?_, ?_⟩, fun a => ⟨setter_writesWords rfl rfl, setter_writesWords rfl rfl,
    setter_writesWords rfl rfl, setter_writesWords rfl rfl⟩⟩
  all_goals exact fun w hop => by simp [decodeCommand, hop]

/-- Settles O12: the four commands as rows of `setterStores`. -/
theorem tripleSettersStoreThreeWords : Obligations.TripleSettersStoreThreeWords := by
  refine ⟨⟨?_, ?_, ?_, ?_⟩, fun a b c => ⟨setter_writesWords rfl rfl, setter_writesWords rfl rfl,
    setter_writesWords rfl rfl, setter_writesWords rfl rfl⟩⟩
  all_goals exact fun w hop => by simp [decodeCommand, hop]

/-- Settles O13: the value `p` of the statement is the packed word that each of the four commands stores. -/
theorem pairSettersPackLowBytes : Obligations.PairSettersPackLowBytes := by
  refine ⟨⟨?_, ?_, ?_, ?_⟩, fun a b p hp => ?_⟩
  case refine_5 =>
    obtain rfl : p = pack88 a b := BitVec.eq_of_toNat_eq (hp.trans (pack88_toNat a b).symm)
    exact ⟨setter_writesWords rfl rfl, setter_writesWords rfl rfl, setter_writesWords rfl rfl,
      setter_writesWords rfl rfl⟩
  all_goals exact fun w hop => by simp [decodeCommand, hop]

/-- Settles O14: the two outcomes of the index test. -/
theorem setMotionWritesEntryOrRejects : Obligations.SetMotionWritesEntryOrRejects := by
  refine ⟨fun w hop => by simp [decodeCommand, hop], fun idx a b c => ?_⟩
  split_ifs with h
  · rw [← pack88_eq_ofNat]
    exact writesWords_setMotion h a b c
  · rw [BitVec.ofNat_toNat]
    exact rejects_setMotion (Nat.not_lt.mp h) a b c

/-- Settles O15: the two outcomes of the index test. -/
theorem setUserWritesSlotOrRejects : Obligations.SetUserWritesSlotOrRejects := by
  refine ⟨fun w hop => by simp [decodeCommand, hop], fun idx a => ?_⟩
  split_ifs with h
  · exact writesWords_setUser h a
  · rw [BitVec.ofNat_toNat]
    exact rejects_setUser (Nat.not_lt.mp h) a

/-- Settles O17: packing appends the low bytes, and the low byte of a masked integer is the integer's own. -/
theorem packingKeepsLanesApart : Obligations.PackingKeepsLanesApart := by
  refine ⟨fun a b => ⟨hi8_append _ _, lo8_append _ _, pack88_toNat a b⟩, fun x y => ⟨pack88_w16 x y, ?_⟩⟩
  rw [← pack88_w16, pack88_toNat, Int.natCast_add, Int.natCast_mul, w16_toNat_mod, w16_toNat_mod]
  rfl

/-- Settles O18: each lane of a packed word is the masked value, and sign extension undoes masking within range. -/
theorem inRangeValuesReadBack : Obligations.InRangeValuesReadBack := by
  refine ⟨fun v => sext16_w16, fun x y hxlo hxhi hylo hyhi => ?_⟩
  rw [pack88Int, hi8_append, lo8_append]
  exact ⟨sext8_b8 hxlo hxhi, sext8_b8 hylo hyhi⟩

end Sys2Proof.Machine
end

section
/-! The arithmetic of the checksum (R130, R131): the sum as one of integers, and what a change of one word does
to it. -/

namespace Sys2Proof.Machine

/-- Writing a word as it stands leaves the frame. -/
theorem Frame.put_word_self (F : Frame) (i : Offset) : Frame.put F i (Frame.word F i) = F := by
  refine Frame.ext_word fun j => ?_
  rw [Frame.word_put]
  split_ifs with h
  · rw [h]
  · rfl

/-- R9: the 16-bit sum of a family of words, by the integers they stand for. -/
theorem sum16_ofFn_toNat {n : Nat} (f : Fin n → Word) :
    (sum16 (List.ofFn f)).toNat = (∑ i, (f i).toNat) % 65536 := by
  rw [sum16_toNat, List.map_ofFn, List.sum_ofFn]
  rfl

/-- R130: the checksum as an integer. -/
theorem computeChecksum_toNat (F : Frame) :
    (computeChecksum F).toNat = (65536 - (∑ i : Fin 89, (Frame.word F i.castSucc).toNat) % 65536) % 65536 := by
  rw [computeChecksum, neg16_eq_neg, BitVec.toNat_neg, take_toList_eq_ofFn, sum16_ofFn_toNat]

/-- R131: a frame is valid exactly when its words sum to 0. -/
theorem validate_iff_sum (F : Frame) : validate F = true ↔ (∑ i : Offset, (Frame.word F i).toNat) % 65536 = 0 := by
  rw [validate, beq_iff_eq, ← BitVec.toNat_inj, toList_eq_ofFn, sum16_ofFn_toNat]
  rfl

/-- R131: whether a written word makes the frame valid depends on it and the sum of the other words. -/
theorem validate_put_iff (F : Frame) (i : Offset) (w : Word) :
    validate (Frame.put F i w) = true ↔
      (w.toNat + ∑ j ∈ Finset.univ.erase i, (Frame.word F j).toNat) % 65536 = 0 := by
  have others : ∑ j ∈ Finset.univ.erase i, (Frame.word (Frame.put F i w) j).toNat =
      ∑ j ∈ Finset.univ.erase i, (Frame.word F j).toNat :=
    Finset.sum_congr rfl fun j hj => by rw [Frame.word_put_ne F w (Finset.ne_of_mem_erase hj).symm]
  rw [validate_iff_sum, ← Finset.add_sum_erase _ _ (Finset.mem_univ i), others, Frame.word_put_same]

/-- R131: only one value of a word makes the frame valid. -/
theorem eq_of_validate_put {F : Frame} {i : Offset} {v w : Word} (hv : validate (Frame.put F i v) = true)
    (hw : validate (Frame.put F i w) = true) : v = w := by
  rw [validate_put_iff] at hv hw
  apply BitVec.eq_of_toNat_eq
  omega

/-- R131, R137: a changed word makes a valid frame invalid. -/
theorem validate_put_of_ne {F : Frame} {i : Offset} {w : Word} (valid : validate F = true)
    (hw : w ≠ Frame.word F i) : validate (Frame.put F i w) = false := by
  rw [← Frame.put_word_self F i] at valid
  exact Bool.eq_false_iff.mpr fun h => hw (eq_of_validate_put h valid)

/-! R137, R134: the checksum word is not summed, and finalizing writes the word that a valid frame has. -/

theorem computeChecksum_put_offCsum (F : Frame) (w : Word) :
    computeChecksum (Frame.put F offCsum w) = computeChecksum F := by
  rw [computeChecksum, take_put_offCsum, computeChecksum]

theorem word_finalizeFrame (F : Frame) (j : Offset) :
    Frame.word (finalizeFrame F) j = if j = 89 then computeChecksum F else Frame.word F j := by
  simp only [finalizeFrame, Frame.word_put, offCsum, eq_comm]

theorem computeChecksum_finalizeFrame (F : Frame) : computeChecksum (finalizeFrame F) = computeChecksum F :=
  computeChecksum_put_offCsum F _

theorem finalizeFrame_of_validate {F : Frame} (valid : validate F = true) : finalizeFrame F = F := by
  rw [finalizeFrame, ← (validate_iff F).mp valid, Frame.put_word_self]

theorem finalizeFrame_finalizeFrame (F : Frame) : finalizeFrame (finalizeFrame F) = finalizeFrame F :=
  finalizeFrame_of_validate (validate_finalizeFrame F)

end Sys2Proof.Machine
end

section
/-! The wire form of a frame (R41, R132, R133): its bytes by their places, the words read from a datagram as integers,
and what decoding answers. -/

namespace Sys2Proof.Machine

/-- R132: the two bytes of word `i` in the datagram of a frame. -/
theorem encodeBytes_getElem? (F : Frame) (i : Offset) :
    (encodeBytes F)[2 * i.val]? = some (lo8 (Frame.word F i)) ∧
    (encodeBytes F)[2 * i.val + 1]? = some (hi8 (Frame.word F i)) := by
  have hw : F.toList[i.val]? = some (Frame.word F i) := by simp [Frame.word, Vector.get_eq_getElem]
  simpa only [encodeBytes, hw, Option.map_some] using wireBytes_getElem? F.toList i

/-- R132 undoes R133 on the byte lists that have the length of a frame. -/
theorem encodeBytes_wordsOfBytes {bs : Datagram} (hlen : bs.length = 180) : encodeBytes (wordsOfBytes bs) = bs := by
  have byte {n : Nat} (hn : n < 180) : some (bs.getD n 0) = bs[n]? := by
    rw [List.getD_eq_getElem bs 0 (hlen ▸ hn), List.getElem?_eq_getElem]
  have pair (i : Offset) : (encodeBytes (wordsOfBytes bs))[2 * i.val]? = bs[2 * i.val]? ∧
      (encodeBytes (wordsOfBytes bs))[2 * i.val + 1]? = bs[2 * i.val + 1]? := by
    obtain ⟨hlo, hhi⟩ := encodeBytes_getElem? (wordsOfBytes bs) i
    rw [hlo, hhi, wordsOfBytes_word, lo8_append, hi8_append]
    exact ⟨byte (by omega), byte (by omega)⟩
  refine List.ext_getElem? fun n => ?_
  by_cases hn : n < 180
  · obtain ⟨i, rfl | rfl⟩ : ∃ i : Offset, n = 2 * i.val ∨ n = 2 * i.val + 1 :=
      ⟨⟨n / 2, by omega⟩, by dsimp only; omega⟩
    · exact (pair i).1
    · exact (pair i).2
  · rw [List.getElem?_eq_none (by simpa using hn), List.getElem?_eq_none (by omega)]

theorem byte_append_toNat (h l : Byte) : (h ++ l : Word).toNat = l.toNat + 256 * h.toNat := by
  have e : (h ++ l : Word).toNat = h.toNat <<< 8 ||| l.toNat := BitVec.toNat_append h l
  rw [e, ← Nat.shiftLeft_add_eq_or_of_lt l.isLt, Nat.shiftLeft_eq]
  omega

/-- R41: a word read from a datagram, as an integer. -/
theorem wordsOfBytes_word_toNat (bs : Datagram) (i : Offset) :
    (Frame.word (wordsOfBytes bs) i).toNat = wireWord bs i := by
  rw [wordsOfBytes_word, byte_append_toNat, wireWord]

/-- R131, R133: the words of a datagram are valid exactly when their integers sum to 0. -/
theorem validate_wordsOfBytes_iff (bs : Datagram) :
    validate (wordsOfBytes bs) = true ↔ (∑ i : Offset, wireWord bs i) % 65536 = 0 := by
  simp only [validate_iff_sum, wordsOfBytes_word_toNat]

/-! R133: what decoding answers, by the length and the sum. -/

theorem decodeDatagram_of_length_ne {bs : Datagram} (hlen : bs.length ≠ 180) :
    decodeDatagram bs = .error .lengthMismatch := by
  rcases decodeDatagram_cases bs with ⟨-, hd⟩ | ⟨h, -, -⟩ | ⟨h, -, -⟩
  · exact hd
  · exact absurd h hlen
  · exact absurd h hlen

theorem decodeDatagram_of_sum_ne {bs : Datagram} (hlen : bs.length = 180)
    (hsum : (∑ i : Offset, wireWord bs i) % 65536 ≠ 0) : decodeDatagram bs = .error .checksumError := by
  rcases decodeDatagram_cases bs with ⟨h, -⟩ | ⟨-, -, hd⟩ | ⟨-, valid, -⟩
  · exact absurd hlen h
  · exact hd
  · exact absurd ((validate_wordsOfBytes_iff bs).mp valid) hsum

theorem decodeDatagram_of_sum {bs : Datagram} (hlen : bs.length = 180)
    (hsum : (∑ i : Offset, wireWord bs i) % 65536 = 0) : decodeDatagram bs = .ok (wordsOfBytes bs) := by
  have valid := decodeDatagram_encodeBytes ((validate_wordsOfBytes_iff bs).mpr hsum)
  rwa [encodeBytes_wordsOfBytes hlen] at valid

end Sys2Proof.Machine
end

section
/-! The commands of the checksum engine (R135 to R139) and the response they end with. -/

namespace Sys2Proof.Machine

/-- R137: FINALIZE finalizes OUT and answers the checksum. -/
theorem exec_finalize (s : State) :
    exec .finalize s =
      .next (State.respond { s with out := finalizeFrame s.out } .ok (computeChecksum s.out)) := rfl

theorem lastResponse_respond (s : State) (st : Status) (d : Word) :
    lastResponse (.next (s.respond st d)) = some ⟨st, d⟩ := List.getLast?_concat

theorem AnswersOnly.lastResponse_eq {i : Instr} {d : State → Word} (h : AnswersOnly i d) (s : State) :
    lastResponse (exec i s) = some ⟨.ok, d s⟩ := by
  rw [h s]
  exact lastResponse_respond s .ok (d s)

/-! R135, R136, R138, R139: four commands that finish with a value read from the state. -/

theorem answersOnly_csumOut : AnswersOnly .csumOut fun s => computeChecksum s.out := fun _ => rfl
theorem answersOnly_valOut : AnswersOnly .valOut fun s => if validate s.out then 1 else 0 := fun _ => rfl
theorem answersOnly_csumIn : AnswersOnly .csumIn fun s => computeChecksum s.inb := fun _ => rfl
theorem answersOnly_valIn : AnswersOnly .valIn fun s => if validate s.inb then 1 else 0 := fun _ => rfl

end Sys2Proof.Machine
end

section
/-! The statements about the checksum engine (spec/41_checksum.md). -/

namespace Sys2Proof.Machine

/-- Settles O21: the checksum as an integer. -/
theorem checksumIsNegatedSum : Obligations.ChecksumIsNegatedSum := computeChecksum_toNat

/-- Settles O22: validity by the sum, and by the checksum word. -/
theorem validIffSumZeroIffChecksumWord : Obligations.ValidIffSumZeroIffChecksumWord :=
  ⟨fun F => ⟨validate_iff_sum F, validate_iff F⟩, validate_zeroFrame⟩

/-- Settles O23: the word a valid frame has is the only one that makes it valid. -/
theorem oneChangedWordIsDetected : Obligations.OneChangedWordIsDetected := fun _ _ _ => validate_put_of_ne

/-- Settles O24: the bytes of a frame by their places. -/
theorem encodeBytesIsLittleEndian : Obligations.EncodeBytesIsLittleEndian := fun F =>
  ⟨encodeBytes_length F, encodeBytes_getElem? F⟩

/-- Settles O25: the three answers of decoding. -/
theorem decodeDatagramResult : Obligations.DecodeDatagramResult := fun bs =>
  ⟨decodeDatagram_of_length_ne, decodeDatagram_of_sum_ne, fun hlen hsum =>
    ⟨_, decodeDatagram_of_sum hlen hsum, wordsOfBytes_word_toNat bs⟩⟩

/-- Settles O26: encoding and decoding undo each other, and finalizing is idempotent because the checksum word is not
summed. -/
theorem codecLaws : Obligations.CodecLaws :=
  ⟨validate_finalizeFrame, fun _ => decodeDatagram_encodeBytes, wordsOfBytes_encodeBytes,
    fun _ => encodeBytes_wordsOfBytes, fun bs hlen => decodeDatagram_of_length_ne (by omega),
    fun _ => decodeDatagram_of_sum_ne, computeChecksum_put_offCsum, finalizeFrame_finalizeFrame⟩

/-- Settles O29: FINALIZE leaves a finalized OUT, which a second FINALIZE finds as it leaves it. -/
theorem finalizeMakesOutboundValid : Obligations.FinalizeMakesOutboundValid := by
  refine ⟨fun w hop => by simp [decodeCommand, hop], fun s => ?_⟩
  have valid := validate_finalizeFrame s.out
  refine ⟨_, exec_finalize s, rfl, word_finalizeFrame s.out, valid, fun j w => validate_put_of_ne valid, _,
    exec_finalize _, finalizeFrame_of_validate valid, ?_⟩
  simp only [lastResponse_respond, State.respond_out, computeChecksum_finalizeFrame]

/-- Settles O27: both commands answer a value read from OUT. -/
theorem outboundChecksumCommands : Obligations.OutboundChecksumCommands := by
  refine ⟨?_, ?_, answersOnly_csumOut, answersOnly_valOut⟩
  all_goals exact fun w hop => by simp [decodeCommand, hop]

/-- Settles O28: both commands answer a value read from IN, whose word 89 is its checksum when it is valid. -/
theorem inboundChecksumCommands : Obligations.InboundChecksumCommands := by
  refine ⟨?_, ?_, answersOnly_csumIn, answersOnly_valIn, fun s valid => ⟨?_, ?_⟩⟩
  case refine_3 =>
    have csum : Frame.word s.inb 89 = computeChecksum s.inb := (validate_iff s.inb).mp valid
    rw [answersOnly_csumIn.lastResponse_eq, csum]
  case refine_4 => rw [answersOnly_valIn.lastResponse_eq, if_pos (show validate s.inb = true from valid)]
  all_goals exact fun w hop => by simp [decodeCommand, hop]

end Sys2Proof.Machine
end

section
/-! The arithmetic of sequence numbers (R150 to R153): the comparison and the functions made of it, as integers. -/

namespace Sys2Proof.Machine

/-- R150: the comparison is the one of the integers. -/
theorem seqGt_iff (a b : Word) : seqGt a b = true ↔ b.toNat < a.toNat := decide_eq_true_iff

/-! R151: the maximum. -/

theorem seqMax_eq (a b : Word) : seqMax a b = if b.toNat < a.toNat then a else b := by
  simp only [seqMax, seqGt_iff]

theorem seqMax_toNat (a b : Word) : (seqMax a b).toNat = max a.toNat b.toNat := by
  rw [seqMax_eq]
  split <;> omega

theorem seqMax_self (a : Word) : seqMax a a = a := ite_self a

theorem seqMax_comm (a b : Word) : seqMax a b = seqMax b a := by
  apply BitVec.eq_of_toNat_eq
  rw [seqMax_toNat, seqMax_toNat, max_comm]

theorem seqMax_zero (a : Word) : seqMax a 0 = a := by
  apply BitVec.eq_of_toNat_eq
  rw [seqMax_toNat]
  exact Nat.max_zero a.toNat

/-! R152: the increment, on either side of the wrap. -/

theorem seqInc_of_ge {b : Word} (h : 59999 ≤ b.toNat) : seqInc b = 0 := if_pos h

theorem seqInc_toNat_of_le {b : Word} (h : b.toNat ≤ 59998) : (seqInc b).toNat = b.toNat + 1 := by
  have inc : seqInc b = b + 1 := if_neg (by simp only [Config.seqLast]; omega)
  rw [inc]
  exact BitVec.toNat_add_of_lt (show b.toNat + 1 < 2 ^ 16 by omega)

/-- R152: no increment overflows 16 bits, or leaves the range of sequence numbers. -/
theorem seqInc_toNat_le (b : Word) : (seqInc b).toNat ≤ 59999 := by
  rcases Nat.lt_or_ge b.toNat 59999 with low | high
  · rw [seqInc_toNat_of_le (by omega)]
    exact low
  · rw [seqInc_of_ge high]
    decide

/-- R152: on the sequence numbers, the increment is the one modulo 60000. -/
theorem seqInc_toNat_eq_mod {b : Word} (h : b.toNat ≤ 59999) : (seqInc b).toNat = (b.toNat + 1) % 60000 := by
  rcases Nat.lt_or_eq_of_le h with low | last
  · rw [seqInc_toNat_of_le (by omega), Nat.mod_eq_of_lt (by omega)]
  · rw [seqInc_of_ge last.ge, last]
    rfl

/-! R153: the next number. -/

theorem nextSequence_comm (a b : Word) : nextSequence a b = nextSequence b a := congrArg seqInc (seqMax_comm a b)

theorem nextSequence_zero (a : Word) : nextSequence a 0 = seqInc a := congrArg seqInc (seqMax_zero a)

/-- R155: SEQ_NEXT finishes with a value of its operands. -/
theorem answersOnly_seqNext (a b : Word) : AnswersOnly (.seqNext a b) fun _ => nextSequence a b := fun _ => rfl

end Sys2Proof.Machine
end

section
/-! The statements about the sequence unit (spec/42_sequence.md). -/

namespace Sys2Proof.Machine

/-- Settles O30: the comparison inherits the strict order of the integers, and two words of one integer are equal. -/
theorem sequenceOrderIsPlainUnsigned : Obligations.SequenceOrderIsPlainUnsigned := by
  refine ⟨seqGt_iff, fun a => ?irrefl, fun a b c hab hbc => ?trans, fun a b hne => ?total, ?notModular⟩
  case irrefl => exact Bool.eq_false_iff.mpr fun h => Nat.lt_irrefl a.toNat ((seqGt_iff a a).mp h)
  case trans =>
    rw [seqGt_iff] at hab hbc ⊢
    exact hbc.trans hab
  case total =>
    rw [seqGt_iff, seqGt_iff]
    exact (Nat.lt_or_gt_of_ne (BitVec.toNat_ne_iff_ne.mpr hne)).symm
  case notModular => decide

/-- Settles O31: the maximum is the one of the integers. -/
theorem sequenceMaximum : Obligations.SequenceMaximum := fun a b =>
  ⟨seqMax_toNat a b, fun h => h ▸ seqMax_self a⟩

/-- Settles O32: the increment below the wrap and from it on. -/
theorem sequenceIncrementWraps : Obligations.SequenceIncrementWraps := fun b =>
  ⟨seqInc_of_ge, seqInc_toNat_of_le, seqInc_toNat_le b, seqInc_toNat_eq_mod⟩

/-- Settles O33: SEQ_NEXT answers the next number of its operands. -/
theorem seqNextAnswersNextNumber : Obligations.SeqNextAnswersNextNumber := by
  refine ⟨fun w hop => by simp [decodeCommand, hop], fun a b => ?_, nextSequence_comm, nextSequence_zero⟩
  rw [← seqMax_eq]
  exact answersOnly_seqNext a b

end Sys2Proof.Machine
end

section
/-! What SEND does (R170), said once as the state it leaves, and what several SENDs in a row leave. -/

namespace Sys2Proof.Machine

/-- R170, R153: the number that a SEND carries. -/
def State.sendNumber (s : State) : Word := nextSequence (Frame.word s.out 1) (Frame.word s.inb 1)

/-- R170: the state that a SEND leaves; `exec_send` ties it to the model. -/
def State.afterSend (s : State) : State :=
  { s with out := sendFrame s.out s.inb, link := true, txh := s.txh ++ [encodeBytes (sendFrame s.out s.inb)],
           rsps := s.rsps ++ [⟨.ok, s.sendNumber⟩] }

theorem exec_send (s : State) : exec .send s = .next s.afterSend := rfl

/-- R170: the words of OUT after a SEND. -/
theorem word_sendFrame (out inb : Frame) (j : Offset) :
    Frame.word (sendFrame out inb) j =
      if j = 89 then computeChecksum (sendFrame out inb)
      else if j = 1 then nextSequence (Frame.word out 1) (Frame.word inb 1) else Frame.word out j := by
  simp only [sendFrame, word_finalizeFrame, computeChecksum_finalizeFrame, Frame.word_put, offSeq, eq_comm]

@[simp] theorem State.afterSend_inb (s : State) : s.afterSend.inb = s.inb := rfl
@[simp] theorem State.afterSend_txh (s : State) :
    s.afterSend.txh = s.txh ++ [encodeBytes (sendFrame s.out s.inb)] := rfl
@[simp] theorem State.afterSend_rsps (s : State) : s.afterSend.rsps = s.rsps ++ [⟨.ok, s.sendNumber⟩] := rfl

@[simp] theorem State.word_afterSend_out_one (s : State) : Frame.word s.afterSend.out 1 = s.sendNumber :=
  word_sendFrame s.out s.inb 1

theorem State.word_afterSend_out_of_ne (s : State) {j : Offset} (hseq : j ≠ 1) (hcsum : j ≠ 89) :
    Frame.word s.afterSend.out j = Frame.word s.out j := by
  rw [State.afterSend, word_sendFrame, if_neg hcsum, if_neg hseq]

/-- R170: of two SENDs in a row the second continues from the number of the first. -/
theorem State.sendNumber_afterSend (s : State) :
    s.afterSend.sendNumber = nextSequence s.sendNumber (Frame.word s.inb 1) := by
  rw [sendNumber, word_afterSend_out_one, afterSend_inb]

/-! `n` SENDs in a row. -/

theorem execAll_replicate_send (n : Nat) (s : State) :
    execAll (List.replicate n .send) s = .next (State.afterSend^[n] s) := by
  induction n generalizing s with
  | zero => rfl
  | succ n ih => rw [List.replicate_succ, execAll_cons (exec_send s), ih, Function.iterate_succ_apply]

theorem State.iterate_afterSend_inb (n : Nat) (s : State) : (afterSend^[n] s).inb = s.inb := by
  induction n with
  | zero => rfl
  | succ n ih => rw [Function.iterate_succ_apply', afterSend_inb, ih]

theorem State.iterate_afterSend_txh_length (n : Nat) (s : State) :
    (afterSend^[n] s).txh.length = s.txh.length + n := by
  induction n with
  | zero => rfl
  | succ n ih => rw [Function.iterate_succ_apply', afterSend_txh, List.length_append, ih]; rfl

/-- Each SEND of the row answers the number it carries. -/
theorem State.iterate_afterSend_rsps (n : Nat) (s : State) :
    (afterSend^[n] s).rsps = s.rsps ++ (List.range n).map fun k => ⟨.ok, (afterSend^[k] s).sendNumber⟩ := by
  induction n with
  | zero => simp
  | succ n ih =>
    rw [Function.iterate_succ_apply', afterSend_rsps, ih, List.range_succ, List.map_append, List.append_assoc]
    rfl

theorem State.word_iterate_afterSend_out_of_ne (n : Nat) (s : State) {j : Offset} (hseq : j ≠ 1) (hcsum : j ≠ 89) :
    Frame.word (afterSend^[n] s).out j = Frame.word s.out j := by
  induction n with
  | zero => rfl
  | succ n ih => rw [Function.iterate_succ_apply', word_afterSend_out_of_ne _ hseq hcsum, ih]

/-- The numbers of the row, each found from the one before it and the peer's number, which stays. -/
theorem State.sendNumber_iterate_succ (k : Nat) (s : State) :
    (afterSend^[k + 1] s).sendNumber = nextSequence (afterSend^[k] s).sendNumber (Frame.word s.inb 1) := by
  rw [Function.iterate_succ_apply', sendNumber_afterSend, iterate_afterSend_inb]

/-- R152, R153: from sequence numbers, the next number is one more than the greater, modulo 60000. -/
theorem nextSequence_toNat_eq_mod {a b : Word} (h : max a.toNat b.toNat ≤ 59999) :
    (nextSequence a b).toNat = (max a.toNat b.toNat + 1) % 60000 := by
  rw [← seqMax_toNat] at h ⊢
  exact seqInc_toNat_eq_mod h

/-- R171: the numbers of the row count up as long as the peer's number does not exceed the last one sent: always when
it is 0, and up to the wrap otherwise (log entry 9). -/
theorem State.sendNumber_iterate_toNat {n m : Nat} {s : State}
    (hm : m = max (Frame.word s.out 1).toNat (Frame.word s.inb 1).toNat)
    (h : (Frame.word s.inb 1 = 0 ∧ m < 60000) ∨ m + n ≤ 59999) {k : Nat} (hk : k < n) :
    (afterSend^[k] s).sendNumber.toNat = (m + 1 + k) % 60000 := by
  have peer : (Frame.word s.inb 1).toNat ≤ m := hm ▸ le_max_right _ _
  induction k with
  | zero =>
    have first := nextSequence_toNat_eq_mod (a := Frame.word s.out 1) (b := Frame.word s.inb 1) (by omega)
    rwa [← hm] at first
  | succ k ih =>
    have previous := ih (by omega)
    have greater : max (afterSend^[k] s).sendNumber.toNat (Frame.word s.inb 1).toNat = (m + 1 + k) % 60000 := by
      rw [previous]
      refine max_eq_left ?_
      rcases h with ⟨zero, -⟩ | short
      · rw [zero]
        exact Nat.zero_le _
      · omega
    rw [sendNumber_iterate_succ, nextSequence_toNat_eq_mod (by omega), greater]
    omega

end Sys2Proof.Machine
end

section
/-! What the two error-word commands write (R165, R166), what a datagram does (R175), what the two read commands reject
(R180, R181), and the status word (R183). -/

namespace Sys2Proof.Machine

/-! R165, R166: the writes of word 88. -/

theorem exec_errSet (c : Word) (s : State) :
    exec (.errSet c) s = .next ((s.writeOut 88 (Frame.word s.out 88 ||| c)).respond .ok 0) := rfl

theorem exec_errClr (s : State) : exec .errClr s = .next ((s.writeOut 88 0).respond .ok 0) := rfl

/-! R175: a datagram that is dropped, and one that is accepted. -/

/-- R175, R198: a dropped datagram leaves its response alone, since its error is not hard. -/
theorem exec_rxDatagram_of_error {bs : Datagram} {e : Status} (hd : decodeDatagram bs = .error e)
    (soft : isHardError e = false) (s : State) :
    exec (.rxDatagram bs) s = .next { s with rxrsps := s.rxrsps ++ [⟨e, false⟩] } := by
  simp only [exec, execRxDatagram, hd, State.raise_rx_eq, soft, Bool.or_false]

theorem exec_rxDatagram_of_ok {bs : Datagram} {F : Frame} (hd : decodeDatagram bs = .ok F) (s : State) :
    exec (.rxDatagram bs) s = .next (s.receive F) := by
  simp only [exec, execRxDatagram, hd]

/-! R175: an accepted frame is adopted when its number is greater than that of OUT, and only then. -/

theorem State.receive_of_lt {s : State} {F : Frame} (h : (Frame.word s.out 1).toNat < (Frame.word F 1).toNat) :
    s.receive F = { s with inb := F, link := true, out := F, rxrsps := s.rxrsps ++ [⟨.ok, true⟩] } := by
  have adopted : seqGt (Frame.word F offSeq) (Frame.word s.out offSeq) = true := (seqGt_iff _ _).mpr h
  simp only [State.receive, adopted, if_true]

theorem State.receive_of_le {s : State} {F : Frame} (h : (Frame.word F 1).toNat ≤ (Frame.word s.out 1).toNat) :
    s.receive F = { s with inb := F, link := true, rxrsps := s.rxrsps ++ [⟨.ok, false⟩] } := by
  have kept : seqGt (Frame.word F offSeq) (Frame.word s.out offSeq) = false :=
    Bool.eq_false_iff.mpr fun greater => Nat.not_lt.mpr h ((seqGt_iff _ _).mp greater)
  simp only [State.receive, kept, Bool.false_eq_true, if_false]

/-! R180, R181: a read of an offset that does not exist. -/

theorem rejects_rdOut {idx : Byte} (h : 90 ≤ idx.toNat) :
    Rejects (.rdOut idx) .badOffset true (idx.setWidth 16) := fun s => by
  simp only [exec, execRdOut, checkIndex_ge h]
  rfl

theorem rejects_rdIn {idx : Byte} (h : 90 ≤ idx.toNat) :
    Rejects (.rdIn idx) .badOffset true (idx.setWidth 16) := fun s => by
  simp only [exec, execRdIn, checkIndex_ge h]
  rfl

/-- R26: the status word as an integer. -/
theorem statusWord_eq_ofNat (link fault : Bool) :
    statusWord link fault = BitVec.ofNat 16 (link.toNat + 2 * fault.toNat) := by
  cases link <;> cases fault <;> rfl

/-- R183: RD_STAT finishes with the status word. -/
theorem answersOnly_rdStat : AnswersOnly .rdStat fun s => statusWord s.link s.fault := fun _ => rfl

end Sys2Proof.Machine
end

section
/-! The statements about the buffer controller and merge arbiter (spec/43_link.md). -/

namespace Sys2Proof.Machine

/-- Settles O35: SEND leaves a finalized frame in OUT, which is therefore valid and decodes to itself. -/
theorem sendNumbersFinalizesAndEmits : Obligations.SendNumbersFinalizesAndEmits := by
  refine ⟨fun w hop => by simp [decodeCommand, hop], fun s => ?_⟩
  have number := s.word_afterSend_out_one
  have decodes := decodeDatagram_encodeBytes (F := s.afterSend.out) (validate_finalizeFrame _)
  exact ⟨_, exec_send s, by rw [number]; rfl, number, word_sendFrame s.out s.inb 89,
    fun _ => s.word_afterSend_out_of_ne, decodes⟩

/-- Settles O36: the three answers of decoding, and for an accepted frame the two outcomes of the comparison. -/
theorem rxDatagramDropsOrReceives : Obligations.RxDatagramDropsOrReceives := by
  refine fun bs s => ⟨fun hlen => ?_, fun hlen hsum => ?_, fun hlen hsum => ?_⟩
  · exact exec_rxDatagram_of_error (decodeDatagram_of_length_ne hlen) rfl s
  · exact exec_rxDatagram_of_error (decodeDatagram_of_sum_ne hlen hsum) rfl s
  · have received := exec_rxDatagram_of_ok (decodeDatagram_of_sum hlen hsum) s
    exact ⟨_, wordsOfBytes_word_toNat bs, fun greater => by rw [received, State.receive_of_lt greater],
      fun notGreater => by rw [received, State.receive_of_le notGreater]⟩

/-- Settles O37: after the adoption the local and the remote number are the same one. -/
theorem sendAfterAdoptionFollowsInbound : Obligations.SendAfterAdoptionFollowsInbound := by
  intro bs F s t hd greater h
  rw [exec_rxDatagram_of_ok hd, State.receive_of_lt ((seqGt_iff _ _).mp greater)] at h
  cases h
  refine ⟨rfl, rfl, _, exec_send _, ?_⟩
  simp only [State.afterSend_rsps, State.sendNumber, nextSequence, seqMax_self]

/-- Settles O40: the run of SENDs as an iterate, whose last number stays in OUT. -/
theorem sendsCountUpModulo60000 : Obligations.SendsCountUpModulo60000 := by
  intro n m s hm h
  refine ⟨_, execAll_replicate_send n s, ?_, ?_, s.iterate_afterSend_txh_length n, s.iterate_afterSend_inb n,
    fun _ => s.word_iterate_afterSend_out_of_ne n⟩
  · rw [State.iterate_afterSend_rsps]
    refine congrArg _ (List.map_congr_left fun k hk => ?_)
    rw [← State.sendNumber_iterate_toNat hm h (List.mem_range.mp hk), BitVec.ofNat_toNat, BitVec.setWidth_eq]
  · cases n with
    | zero => rfl
    | succ n =>
      rw [Function.iterate_succ_apply', State.word_afterSend_out_one,
        State.sendNumber_iterate_toNat hm h n.lt_succ_self, if_neg n.succ_ne_zero, Nat.add_right_comm, Nat.add_assoc]

/-- Settles O34: both commands write word 88 alone, and ERR_SET reads it first. -/
theorem errorWordAccumulatesAndClears : Obligations.ErrorWordAccumulatesAndClears := by
  refine ⟨⟨?_, ?_⟩, fun c s => ⟨_, exec_errSet c s, rfl, fun j => ?_⟩, writesWords_writeOut offErr 0 exec_errClr,
    fun c1 c2 s zero => ?_⟩
  case refine_3 => simp only [State.respond_out, State.writeOut_out, Frame.word_put, eq_comm]
  case refine_4 =>
    have both := (execAll_cons (is := [.errSet c2]) (exec_errSet c1 s)).trans (execAll_cons (exec_errSet c2 _))
    refine ⟨_, _, both, ?_, exec_errClr _, Frame.word_put_same _ 88 0⟩
    simp [zero]
  all_goals exact fun w hop => by simp [decodeCommand, hop]

/-- Settles O38: the two outcomes of the index test. -/
theorem readCommandsAnswerWordOrReject : Obligations.ReadCommandsAnswerWordOrReject := by
  refine ⟨⟨?_, ?_⟩, fun idx => ⟨fun i h => ?_, fun h => ?_⟩⟩
  case refine_3 =>
    obtain ⟨_, inRange⟩ := i
    cases h
    exact ⟨exec_rdOut_of_lt inRange, exec_rdIn_of_lt inRange⟩
  case refine_4 =>
    rw [BitVec.ofNat_toNat]
    exact ⟨rejects_rdOut h, rejects_rdIn h⟩
  all_goals exact fun w hop => by simp [decodeCommand, hop]

/-- Settles O39: the status word as an integer. -/
theorem readStatusAnswersFlags : Obligations.ReadStatusAnswersFlags := by
  refine ⟨fun w hop => by simp [decodeCommand, hop], ?_⟩
  simp only [← statusWord_eq_ofNat]
  exact answersOnly_rdStat

end Sys2Proof.Machine
end

section
/-! What an error leaves behind (R203, R204), what a HOST command leaves in IN (R206), and the numbers of the statuses
with the bits of a response (R78, R190, R198). -/

namespace Sys2Proof.Machine

namespace Effect

/-- R203: of the ways a HOST command can end, only the rejection has a non-OK status, and it writes no more than FAULT
and its response. -/
theorem exists_response_on_of_error (e : Effect .host) (s : State) :
    ∃ r, e.responses = [r] ∧
      (r.status ≠ .ok → e.on s = { s with fault := s.fault || isHardError r.status, rsps := s.rsps ++ [r] }) := by
  cases e with
  | answer F data => exact ⟨_, rfl, fun notOk => absurd rfl notOk⟩
  | transmit F seq => exact ⟨_, rfl, fun notOk => absurd rfl notOk⟩
  | reject err info he => exact ⟨_, rfl, fun _ => s.raise_host_eq err info⟩

/-- R204: a dropped datagram writes no more than its RX response, since no RX error is hard. -/
theorem exists_rxResponse_on_of_error (e : Effect .rx) (s : State) :
    ∃ r, e.rxResponses = [r] ∧
      (r.status ≠ .ok → r.adopted = false ∧ e.on s = { s with rxrsps := s.rxrsps ++ [r] }) := by
  cases e with
  | drop err he =>
    have faultKept : s.fault = (s.fault || isHardError err) := (on_fault_rx (.drop err he) s).symm
    refine ⟨_, rfl, fun _ => ⟨rfl, ?_⟩⟩
    rw [on, s.raise_rx_eq, ← faultKept]
  | accept F adopted => exact ⟨_, rfl, fun notOk => absurd rfl notOk⟩

/-- R206: of all effects only the acceptance of a frame writes IN, and it is no effect of the HOST. -/
theorem on_inb_host (e : Effect .host) (s : State) : (e.on s).inb = s.inb := by cases e <;> rfl

end Effect

/-- R206: an operation that the command port may carry has an effect of the HOST. -/
theorem exec_hasEffect_host {i : Instr} (h : WellFormed .host i = true) : HasEffect .host (exec i) := by
  have agentIsHost : i.agent = .host := beq_iff_eq.mp h
  exact agentIsHost ▸ exec_hasEffect i

/-- R198: the statuses that set FAULT, by their numbers. -/
theorem isHardError_iff_statusCode (e : Status) :
    isHardError e = true ↔ statusCode e = 3 ∨ statusCode e = 5 ∨ statusCode e = 6 := by
  cases e <;> decide

/-- R78: the status stands above the 16 bits of the data. -/
theorem responseBits_toNat (r : Response) :
    (responseBits r).toNat = (statusCode r.status).toNat * 65536 + r.data.toNat := by
  rw [responseBits, BitVec.toNat_append, ← Nat.shiftLeft_add_eq_or_of_lt r.data.isLt, Nat.shiftLeft_eq]

end Sys2Proof.Machine
end

section
/-! The statements about errors and agents (spec/60_exceptions.md). -/

namespace Sys2Proof.Machine

/-- Settles O46: the transaction has an effect of its port's agent, and an effect with an error writes nothing else. -/
theorem errorsHaveNoOtherEffect : Obligations.ErrorsHaveNoOtherEffect := by
  refine ⟨fun s t w h => ?_, fun s t bs h => ?_⟩
  · obtain ⟨k, hk⟩ := stepHost_hasEffect w
    cases (hk s).symm.trans h
    obtain ⟨r, given, onError⟩ := (k s.block).exists_response_on_of_error s
    exact ⟨r, by rw [Effect.on_rsps, given], onError⟩
  · obtain ⟨k, hk⟩ := stepRx_hasEffect bs
    cases (hk s).symm.trans h
    obtain ⟨r, given, onError⟩ := (k s.block).exists_rxResponse_on_of_error s
    exact ⟨r, by rw [Effect.on_rxrsps, given], onError⟩

/-- Settles O47: a command of the HOST has an effect of the HOST, and none of these writes IN. -/
theorem hostCommandsNeverWriteInbound : Obligations.HostCommandsNeverWriteInbound := by
  intro i s t wellFormed h
  obtain ⟨k, hk⟩ := exec_hasEffect_host wellFormed
  cases (hk s).symm.trans h
  exact (k s.block).on_inb_host s

/-- Settles O44: the numbers by the definition, the hard classes by cases, the bits as integers. -/
theorem statusNumbersAndClasses : Obligations.StatusNumbersAndClasses :=
  ⟨rfl, isHardError_iff_statusCode, responseBits_toNat⟩

end Sys2Proof.Machine
end

section
/-! Waiting inputs (R239): a step answers one of them, on its own port, as long as any are left; and what a run of
steps therefore leaves of them and of the records. -/

namespace Sys2Proof.Machine

/-- How many inputs the environment has offered and the block has not taken, on both ports (log entry 1). -/
def State.waiting (s : State) : Nat := s.cmds.length + s.dgrams.length

/-- R239, R240: `t` comes after `s` and every input taken between them is answered. The records only grow, and of each
port the answers given and the inputs waiting stay as many as they were together; a command sends at most one
datagram. -/
structure State.Answered (s t : State) : Prop where
  rsps_grows : s.rsps <+: t.rsps
  rxrsps_grows : s.rxrsps <+: t.rxrsps
  txh_grows : s.txh <+: t.txh
  cmds_length : t.rsps.length + t.cmds.length = s.rsps.length + s.cmds.length
  dgrams_length : t.rxrsps.length + t.dgrams.length = s.rxrsps.length + s.dgrams.length
  txh_length : t.txh.length + t.cmds.length ≤ s.txh.length + s.cmds.length

theorem State.Answered.refl (s : State) : s.Answered s :=
  ⟨by simp, by simp, by simp, rfl, rfl, le_rfl⟩

theorem State.Answered.trans {s t u : State} (first : s.Answered t) (second : t.Answered u) : s.Answered u where
  rsps_grows := first.rsps_grows.trans second.rsps_grows
  rxrsps_grows := first.rxrsps_grows.trans second.rxrsps_grows
  txh_grows := first.txh_grows.trans second.txh_grows
  cmds_length := second.cmds_length.trans first.cmds_length
  dgrams_length := second.dgrams_length.trans first.dgrams_length
  txh_length := second.txh_length.trans first.txh_length

theorem Effect.responses_length_host (e : Effect .host) : e.responses.length = 1 := by
  obtain ⟨r, hr, -⟩ := e.responses_host
  rw [hr, List.length_singleton]

theorem Effect.rxResponses_length_rx (e : Effect .rx) : e.rxResponses.length = 1 := by
  obtain ⟨r, hr, -⟩ := e.rxResponses_rx
  rw [hr, List.length_singleton]

theorem Effect.sent_length_host (e : Effect .host) : e.sent.length ≤ 1 := by
  rcases e.sent_host with h | ⟨d, h, -⟩ <;> simp [h]

/-- A HOST effect answers the command that was taken for it. -/
theorem Effect.answered_host (e : Effect .host) {s : State} {w : CommandWord} {ws : List CommandWord} (n : Nat)
    (hc : s.cmds = w :: ws) : s.Answered (e.on { s with cmds := ws, draws := n }) where
  rsps_grows := by simp
  rxrsps_grows := by simp
  txh_grows := by simp
  cmds_length := by simp [hc, e.responses_length_host, Nat.add_assoc, Nat.add_comm]
  dgrams_length := by simp
  txh_length := by
    have atMostOne := e.sent_length_host
    simp only [Effect.on_txh, Effect.on_cmds, hc, List.length_append, List.length_cons]
    omega

/-- An RX effect answers the datagram that was taken for it. -/
theorem Effect.answered_rx (e : Effect .rx) {s : State} {d : Datagram} {ds : List Datagram} (n : Nat)
    (hd : s.dgrams = d :: ds) : s.Answered (e.on { s with dgrams := ds, draws := n }) where
  rsps_grows := by simp
  rxrsps_grows := by simp
  txh_grows := by simp
  cmds_length := by simp
  dgrams_length := by simp [hd, e.rxResponses_length_rx, Nat.add_assoc, Nat.add_comm]
  txh_length := by simp

theorem step_answered {s t : State} (h : step s = .next t) : s.Answered t := by
  rcases step_effect_cases h with ⟨-, -, rfl⟩ | ⟨e, w, ws, n, hc, rfl⟩ | ⟨e, d, ds, n, hd, rfl⟩
  · exact .refl t
  · exact e.answered_host n hc
  · exact e.answered_rx n hd

/-- R47: a step takes one input, when there is one. -/
theorem step_waiting {s t : State} (h : step s = .next t) : t.waiting = s.waiting - 1 := by
  rcases step_effect_cases h with ⟨hc, hd, rfl⟩ | ⟨e, w, ws, n, hc, rfl⟩ | ⟨e, d, ds, n, hd, rfl⟩
  · simp [State.waiting, hc, hd]
  · simp [State.waiting, hc]
  · simp [State.waiting, hd]

/-- `n` steps complete, answer what they take, and take `n` inputs or all there are. -/
theorem exists_runEvents_replicate_stepBlock (n : Nat) (s : State) :
    ∃ t, runEvents (List.replicate n .stepBlock) s = .next t ∧ s.Answered t ∧ t.waiting = s.waiting - n := by
  induction n generalizing s with
  | zero => exact ⟨s, rfl, .refl s, rfl⟩
  | succ n ih =>
    obtain ⟨t, ht⟩ := step_completes s
    obtain ⟨u, run, answered, waiting⟩ := ih t
    refine ⟨u, ?_, (step_answered ht).trans answered, ?_⟩
    · simpa only [List.replicate_succ, runEvents, runEvent, ht] using run
    · rw [waiting, step_waiting ht]
      omega

theorem State.waiting_eq_zero {s : State} : s.waiting = 0 ↔ s.cmds = [] ∧ s.dgrams = [] := by
  simp [State.waiting]

/-- Once nothing waits, each record has grown, at its end, by the answers to what waited. -/
theorem State.Answered.records_of_waiting_eq_zero {s t : State} (h : s.Answered t) (noneLeft : t.waiting = 0) :
    (∃ x, t.rsps = s.rsps ++ x ∧ x.length = s.cmds.length) ∧
    (∃ y, t.rxrsps = s.rxrsps ++ y ∧ y.length = s.dgrams.length) ∧
    (∃ z, t.txh = s.txh ++ z ∧ z.length ≤ s.cmds.length) := by
  obtain ⟨⟨x, hx⟩, ⟨y, hy⟩, ⟨z, hz⟩, hcmds, hdgrams, htxh⟩ := h
  obtain ⟨noCmds, noDgrams⟩ := State.waiting_eq_zero.mp noneLeft
  simp only [← hx, noCmds, List.length_append, List.length_nil] at hcmds
  simp only [← hy, noDgrams, List.length_append, List.length_nil] at hdgrams
  simp only [← hz, noCmds, List.length_append, List.length_nil] at htxh
  exact ⟨⟨x, hx.symm, by omega⟩, ⟨y, hy.symm, by omega⟩, ⟨z, hz.symm, by omega⟩⟩

end Sys2Proof.Machine
end

section
/-! SENDs at the wrap of the sequence number (R234), and the frame that the first SEND after reset finalizes (R222). -/

namespace Sys2Proof.Machine

/-- R152, R153: from the last number on the next one is 0, on whichever side that number is. -/
theorem nextSequence_of_ge {a b : Word} (h : 59999 ≤ max a.toNat b.toNat) : nextSequence a b = 0 :=
  seqInc_of_ge ((seqMax_toNat a b).symm ▸ h)

/-- R234 (c): a SEND of the row carries 0 while the peer's number is at the wrap, whatever OUT's own is. -/
theorem State.sendNumber_iterate_of_inbound_ge {s : State} (h : 59999 ≤ (Frame.word s.inb 1).toNat) (k : Nat) :
    (afterSend^[k] s).sendNumber = 0 := by
  rw [sendNumber, iterate_afterSend_inb]
  exact nextSequence_of_ge (le_max_of_le_right h)

/-- R234 (b): the SEND that wraps. -/
theorem State.sendNumber_of_outbound_ge {s : State} (h : 59999 ≤ (Frame.word s.out 1).toNat) : s.sendNumber = 0 :=
  nextSequence_of_ge (le_max_of_le_left h)

/-- R130: the checksum of the zero frame with one word written. -/
theorem computeChecksum_put_zeroFrame (i : Fin 89) (w : Word) :
    computeChecksum (Frame.put zeroFrame i.castSucc w) = -w := by
  have onlyOne : ∑ j : Fin 89, (Frame.word (Frame.put zeroFrame i.castSucc w) j.castSucc).toNat = w.toNat := by
    rw [Finset.sum_eq_single i (fun j _ hj => ?others) (by simp), Frame.word_put_same]
    case others =>
      rw [Frame.word_put_ne _ _ ((Fin.castSucc_injective 89).ne hj.symm), word_zeroFrame]
      rfl
  apply BitVec.eq_of_toNat_eq
  rw [computeChecksum_toNat, onlyOne, BitVec.toNat_neg]
  omega

theorem computeChecksum_zeroFrame : computeChecksum zeroFrame = 0 :=
  ((validate_iff zeroFrame).mp validate_zeroFrame).symm.trans (word_zeroFrame offCsum)

/-- R222: both numbers are 0 after reset. -/
theorem State.sendNumber_reset : State.reset.sendNumber = 1 := by
  have zeros : State.reset.sendNumber = nextSequence 0 0 :=
    congrArg₂ nextSequence (word_zeroFrame 1) (word_zeroFrame 1)
  rw [zeros]
  decide

/-- R222: the checksum that the first SEND stores is the negation of its number. -/
theorem State.word_afterSend_reset_csum : Frame.word State.reset.afterSend.out 89 = 0xFFFF := by
  calc Frame.word State.reset.afterSend.out 89
    _ = computeChecksum (sendFrame zeroFrame zeroFrame) := word_sendFrame zeroFrame zeroFrame 89
    _ = computeChecksum (Frame.put zeroFrame 1 State.reset.sendNumber) := computeChecksum_finalizeFrame _
    _ = -State.reset.sendNumber := computeChecksum_put_zeroFrame 1 _
    _ = 0xFFFF := by rw [sendNumber_reset]; rfl

end Sys2Proof.Machine
end

section
/-! The statements about reset and hazards (spec/70_reset_and_hazards.md). -/

namespace Sys2Proof.Machine

/-- Settles O10: as many steps as inputs wait leave none waiting, and answer all they take. -/
theorem waitingInputsAreAllAnswered : Obligations.WaitingInputsAreAllAnswered := by
  intro s
  obtain ⟨t, run, answered, waiting⟩ := exists_runEvents_replicate_stepBlock s.waiting s
  rw [Nat.sub_self] at waiting
  obtain ⟨noCmds, noDgrams⟩ := State.waiting_eq_zero.mp waiting
  exact ⟨t, run, noCmds, noDgrams, answered.records_of_waiting_eq_zero waiting⟩

/-- Settles O41: IN stays through the row, so the peer's number keeps every SEND at the wrap. -/
theorem sendsCarryZeroWhileInboundAtWrap : Obligations.SendsCarryZeroWhileInboundAtWrap := by
  intro n s h
  refine ⟨_, execAll_replicate_send n s, ?_⟩
  simp only [State.iterate_afterSend_rsps, State.sendNumber_iterate_of_inbound_ge h, List.map_const',
    List.length_range]

/-- Settles O42: the first SEND leaves 0 in OUT, so the row after it counts up from the peer's number, short of the
wrap. -/
theorem sendsJumpBackAfterWrap : Obligations.SendsJumpBackAfterWrap := by
  intro n s hout _ hn
  have wrapped : s.sendNumber = 0 := State.sendNumber_of_outbound_ge hout.ge
  have greater : (Frame.word s.inb 1).toNat =
      max (Frame.word s.afterSend.out 1).toNat (Frame.word s.afterSend.inb 1).toNat := by
    rw [State.word_afterSend_out_one, wrapped, State.afterSend_inb]
    exact (Nat.zero_max _).symm
  obtain ⟨t, run, answers, -⟩ := sendsCountUpModulo60000 n _ s.afterSend greater (.inr hn)
  refine ⟨t, (execAll_cons (exec_send s)).trans run, ?_⟩
  rw [answers, State.afterSend_rsps, wrapped, List.append_assoc, List.singleton_append]
  refine congrArg (fun numbers => s.rsps ++ ⟨.ok, 0⟩ :: numbers) (List.map_congr_left fun k hk => ?_)
  have short := List.mem_range.mp hk
  rw [Nat.mod_eq_of_lt (by omega)]

/-- Settles O56: the zero frame is valid and its checksum 0, the first SEND carries 1, and a number of at least 1 is
greater than that of OUT. -/
theorem firstAnswersAfterReset : Obligations.FirstAnswersAfterReset := by
  refine ⟨?valOut, ?valIn, ?csumOut, answersOnly_rdStat.lastResponse_eq _, word_zeroFrame 0, ?send, ?adoption⟩
  case valOut => rw [answersOnly_valOut.lastResponse_eq, if_pos (show validate State.reset.out from validate_zeroFrame)]
  case valIn => rw [answersOnly_valIn.lastResponse_eq, if_pos (show validate State.reset.inb from validate_zeroFrame)]
  case csumOut =>
    have csum : computeChecksum State.reset.out = 0 := computeChecksum_zeroFrame
    rw [answersOnly_csumOut.lastResponse_eq, csum]
  case send =>
    have number := State.sendNumber_reset
    refine ⟨_, exec_send _, (State.word_afterSend_out_one _).trans number, State.word_afterSend_reset_csum, ?_⟩
    exact (lastResponse_respond _ .ok _).trans (by rw [number])
  case adoption =>
    intro bs F hd positive
    have greater : (Frame.word State.reset.out 1).toNat < (Frame.word F 1).toNat := by
      rw [show Frame.word State.reset.out 1 = 0 from word_zeroFrame 1]
      exact positive
    rw [exec_rxDatagram_of_ok hd, State.receive_of_lt greater]
    exact ⟨_, rfl, rfl, rfl⟩

end Sys2Proof.Machine
end
